-- ==== Sys2Proof/Word.lean ====
section
/-! DEFINITION. Word.lean: the word types of UNIPD CORE (R13: bit 0 is the least significant bit of every value). -/

namespace Sys2Proof

/-- The addressable unit of the sensor register space (R61). -/
abbrev Byte := BitVec 8

/-- A command word on the port `cmd` (R92): one length, 64 bits. -/
abbrev CommandWord := BitVec 64

/-- A value of `eng_step`: the whole encoding of a micro-step (R103). -/
abbrev MicroStepCode := BitVec 5

/-- A host-visible register view (R40). -/
abbrev HostWord := BitVec 32

end Sys2Proof
end

