-- ==== Sys2Proof/Syntax.lean ====
section
/-! DEFINITION. Syntax.lean: the instructions of UNIPD CORE (R3): the four commands, the two
pseudo-commands and the 23 micro-steps, one constructor for each row of spec/opcode_table.json. -/

namespace Sys2Proof

/-- An instruction in the sense of R3. Angles are whole degrees and delays microseconds (R93). -/
inductive Instr where
  /-- `LOAD_CAL` (R120) -/
  | loadCal
  /-- `MEASURE` (R190) -/
  | measure
  /-- `ROTATE_BY cw|ccw, A, D` (R226); `cw` is `dirbit`, true for clockwise -/
  | rotateBy (cw : Bool) (angle : Nat) (delay : Nat)
  /-- `ROTATE_TO TGT, D` (R230) -/
  | rotateTo (target : Int) (delay : Nat)
  /-- `NUDGE_CW D`, the pseudo-command for `ROTATE_BY cw, 1, D` (R112) -/
  | nudgeCw (delay : Nat)
  /-- `NUDGE_CCW D`, the pseudo-command for `ROTATE_BY ccw, 1, D` (R112) -/
  | nudgeCcw (delay : Nat)
  /-- micro-steps of the temperature phase (R150 to R153) -/
  | e0 | e1 | e2 | e3
  /-- micro-steps of the pressure phase (R155 to R166) -/
  | e4 | e5 | e6 | e7 | e8 | e9 | e10 | e11 | e12 | e13 | e14 | e15
  /-- micro-steps of the humidity phase (R167 to R172) -/
  | e16 | e17 | e18 | e19 | e20 | e21
  /-- the commit (R173) -/
  | e22
  deriving DecidableEq, Repr

end Sys2Proof
end

