-- ==== Sys2Proof/WellFormed.lean ====
section
/-! DEFINITION. WellFormed.lean: the operands an encoding can carry (R92, R93, R101). -/

namespace Sys2Proof

/-- `delay_us` is an unsigned 32-bit field (R92). -/
def delayFits (delay : Nat) : Bool := decide (delay < 2 ^ 32)

/-- `angle` of ROTATE_BY is an unsigned 16-bit field (R93). -/
def angleFits (angle : Nat) : Bool := decide (angle < 2 ^ 16)

/-- `angle` of ROTATE_TO is a two's complement 16-bit field (R93). -/
def targetFits (target : Int) : Bool := decide (-32768 ≤ target ∧ target ≤ 32767)

/-- The instruction's operands fit the fields that carry them. All such values are legal (R101). -/
def Instr.wellFormed : Instr → Bool
  | .loadCal | .measure => true
  | .rotateBy _ angle delay => angleFits angle && delayFits delay
  | .rotateTo target delay => targetFits target && delayFits delay
  | .nudgeCw delay | .nudgeCcw delay => delayFits delay
  | .e0 | .e1 | .e2 | .e3 => true
  | .e4 | .e5 | .e6 | .e7 | .e8 | .e9 | .e10 | .e11 | .e12 | .e13 | .e14 | .e15 => true
  | .e16 | .e17 | .e18 | .e19 | .e20 | .e21 => true
  | .e22 => true

/-- `WellFormed i` as a proposition. -/
abbrev WellFormed (i : Instr) : Prop := i.wellFormed = true

end Sys2Proof
end

