-- ==== Sys2Proof/Decode.lean ====
section
/-! DEFINITION. Decode.lean: the command decoder (R92 to R100) and the micro-step numbering (R103), total, each
rejection under a name; then the encoder, and the opcode table's match and mask of every row. -/

namespace Sys2Proof

/-- What the block decodes: a command word from the port `cmd`, or the value of `eng_step`. -/
inductive Code where
  | command (w : CommandWord)
  | microStep (k : MicroStepCode)
  deriving DecidableEq, Repr

/-- Why a code is no instruction. -/
inductive DecodeError where
  /-- `opcode` is none of 0x01, 0x02, 0x10, 0x11 (R100) -/
  | unknownOpcode
  /-- `rsv` is not 0 (R100) -/
  | reservedBits
  /-- a format N word with an operand bit set (R100) -/
  | operandBits
  /-- ROTATE_TO with `dirbit` = 1 (R100) -/
  | dirbitSet
  /-- `eng_step` 23 to 31 (R103) -/
  | noSuchMicroStep
  deriving DecidableEq, Repr

/-! ### The fields of a command word (R92) -/

/-- bits [63:56] -/
def opcodeField (w : CommandWord) : BitVec 8 := w.extractLsb' 56 8
/-- bits [55:49] -/
def rsvField (w : CommandWord) : BitVec 7 := w.extractLsb' 49 7
/-- bit [48] -/
def dirbitField (w : CommandWord) : BitVec 1 := w.extractLsb' 48 1
/-- bits [47:32] -/
def angleField (w : CommandWord) : BitVec 16 := w.extractLsb' 32 16
/-- bits [31:0] -/
def delayField (w : CommandWord) : BitVec 32 := w.extractLsb' 0 32
/-- bits [48:0], which format N leaves zero -/
def operandField (w : CommandWord) : BitVec 49 := w.extractLsb' 0 49

/-- The instruction of a legal ROTATE_BY word. A = 1 is the row of NUDGE_CW or NUDGE_CCW, the same
operation under its own row's name (R112, log 8). -/
def rotateByOf (cw : Bool) (angle delay : Nat) : Instr :=
  if angle = 1 then (if cw then .nudgeCw delay else .nudgeCcw delay)
  else .rotateBy cw angle delay

/-- The command decoder: R94 for the opcodes, R93 for the operands, R100 for what is illegal. -/
def decodeCommand (w : CommandWord) : Except DecodeError Instr :=
  if rsvField w ≠ 0 then .error .reservedBits
  else if opcodeField w = 0x01 then
    if operandField w = 0 then .ok .loadCal else .error .operandBits
  else if opcodeField w = 0x02 then
    if operandField w = 0 then .ok .measure else .error .operandBits
  else if opcodeField w = 0x10 then
    .ok (rotateByOf (dirbitField w == 1) (angleField w).toNat (delayField w).toNat)
  else if opcodeField w = 0x11 then
    if dirbitField w = 0 then .ok (.rotateTo (angleField w).toInt (delayField w).toNat)
    else .error .dirbitSet
  else .error .unknownOpcode

/-- The micro-step of a value of `eng_step` (R103). -/
def decodeMicroStep (k : MicroStepCode) : Except DecodeError Instr :=
  match k.toNat with
  | 0 => .ok .e0 | 1 => .ok .e1 | 2 => .ok .e2 | 3 => .ok .e3
  | 4 => .ok .e4 | 5 => .ok .e5 | 6 => .ok .e6 | 7 => .ok .e7
  | 8 => .ok .e8 | 9 => .ok .e9 | 10 => .ok .e10 | 11 => .ok .e11
  | 12 => .ok .e12 | 13 => .ok .e13 | 14 => .ok .e14 | 15 => .ok .e15
  | 16 => .ok .e16 | 17 => .ok .e17 | 18 => .ok .e18 | 19 => .ok .e19
  | 20 => .ok .e20 | 21 => .ok .e21 | 22 => .ok .e22
  | _ => .error .noSuchMicroStep

/-- The instruction of a code, or why there is none. -/
def decode : Code → Except DecodeError Instr
  | .command w => decodeCommand w
  | .microStep k => decodeMicroStep k

/-! ### The encoder -/

/-- A command word from its fields (R92). -/
def commandWord (opcode : BitVec 8) (dirbit : Bool) (angle : BitVec 16) (delay : BitVec 32) : CommandWord :=
  opcode ++ (0 : BitVec 7) ++ BitVec.ofBool dirbit ++ angle ++ delay

/-- The code of an instruction, written from R95 to R98, R103 and R112. -/
def encode : Instr → Code
  | .loadCal => .command (commandWord 0x01 false 0 0)
  | .measure => .command (commandWord 0x02 false 0 0)
  | .rotateBy cw angle delay => .command (commandWord 0x10 cw (BitVec.ofNat 16 angle) (BitVec.ofNat 32 delay))
  | .rotateTo target delay => .command (commandWord 0x11 false (BitVec.ofInt 16 target) (BitVec.ofNat 32 delay))
  | .nudgeCw delay => .command (commandWord 0x10 true 1 (BitVec.ofNat 32 delay))
  | .nudgeCcw delay => .command (commandWord 0x10 false 1 (BitVec.ofNat 32 delay))
  | .e0 => .microStep 0 | .e1 => .microStep 1 | .e2 => .microStep 2 | .e3 => .microStep 3
  | .e4 => .microStep 4 | .e5 => .microStep 5 | .e6 => .microStep 6 | .e7 => .microStep 7
  | .e8 => .microStep 8 | .e9 => .microStep 9 | .e10 => .microStep 10 | .e11 => .microStep 11
  | .e12 => .microStep 12 | .e13 => .microStep 13 | .e14 => .microStep 14 | .e15 => .microStep 15
  | .e16 => .microStep 16 | .e17 => .microStep 17 | .e18 => .microStep 18 | .e19 => .microStep 19
  | .e20 => .microStep 20 | .e21 => .microStep 21 | .e22 => .microStep 22

/-- The spelling the decoder answers: a one-degree ROTATE_BY is its pseudo-command (R112). Every other
instruction is its own. -/
def Instr.canonical : Instr → Instr
  | .rotateBy cw angle delay => rotateByOf cw angle delay
  | i => i

/-- The instruction is a command of the port (R3), not a micro-step. -/
def Instr.isCommand : Instr → Bool
  | .loadCal | .measure | .rotateBy _ _ _ | .rotateTo _ _ | .nudgeCw _ | .nudgeCcw _ => true
  | .e0 | .e1 | .e2 | .e3 | .e4 | .e5 | .e6 | .e7 | .e8 | .e9 | .e10 | .e11 | .e12 | .e13 | .e14 | .e15 => false
  | .e16 | .e17 | .e18 | .e19 | .e20 | .e21 | .e22 => false

/-! ### The opcode table (R94, R103, R104) -/

/-- One row of the opcode table: a code w of that kind selects it when w AND mask = match. -/
inductive OpcodeRow where
  | command (matchBits mask : CommandWord)
  | microStep (matchBits mask : MicroStepCode)
  deriving DecidableEq, Repr

/-- The code selects the row (R94). -/
def OpcodeRow.selects : OpcodeRow → Code → Bool
  | .command m k, .command w => w &&& k == m
  | .microStep m k, .microStep w => w &&& k == m
  | _, _ => false

/-- The row of spec/opcode_table.json that stands for the instruction. -/
def Instr.opcodeRow : Instr → OpcodeRow
  | .loadCal => .command 0x0100000000000000 0xFFFFFFFFFFFFFFFF
  | .measure => .command 0x0200000000000000 0xFFFFFFFFFFFFFFFF
  | .rotateBy _ _ _ => .command 0x1000000000000000 0xFFFE000000000000
  | .rotateTo _ _ => .command 0x1100000000000000 0xFFFF000000000000
  | .nudgeCw _ => .command 0x1001000100000000 0xFFFFFFFF00000000
  | .nudgeCcw _ => .command 0x1000000100000000 0xFFFFFFFF00000000
  | .e0 => .microStep 0x00 0x1F | .e1 => .microStep 0x01 0x1F
  | .e2 => .microStep 0x02 0x1F | .e3 => .microStep 0x03 0x1F
  | .e4 => .microStep 0x04 0x1F | .e5 => .microStep 0x05 0x1F
  | .e6 => .microStep 0x06 0x1F | .e7 => .microStep 0x07 0x1F
  | .e8 => .microStep 0x08 0x1F | .e9 => .microStep 0x09 0x1F
  | .e10 => .microStep 0x0A 0x1F | .e11 => .microStep 0x0B 0x1F
  | .e12 => .microStep 0x0C 0x1F | .e13 => .microStep 0x0D 0x1F
  | .e14 => .microStep 0x0E 0x1F | .e15 => .microStep 0x0F 0x1F
  | .e16 => .microStep 0x10 0x1F | .e17 => .microStep 0x11 0x1F
  | .e18 => .microStep 0x12 0x1F | .e19 => .microStep 0x13 0x1F
  | .e20 => .microStep 0x14 0x1F | .e21 => .microStep 0x15 0x1F
  | .e22 => .microStep 0x16 0x1F

/-- The four command rows that make a word legal (R104: the non-pseudo rows of format N or M). -/
def commandRows : List OpcodeRow :=
  [.command 0x0100000000000000 0xFFFFFFFFFFFFFFFF, .command 0x0200000000000000 0xFFFFFFFFFFFFFFFF,
   .command 0x1000000000000000 0xFFFE000000000000, .command 0x1100000000000000 0xFFFF000000000000]

/-! ### The host's numbering of a row's bits -/

/-- The code of an instruction whose bits are `w`: a row of at most 8 bits is a micro-step number, a longer
one a command word (log 23). None where `w` has bits beyond the code's width. -/
def tableCode (nbits w : Nat) : Option Code :=
  if nbits ≤ 8 then (if w < 2 ^ 5 then some (.microStep (BitVec.ofNat 5 w)) else none)
  else if w < 2 ^ 64 then some (.command (BitVec.ofNat 64 w)) else none

/-- The instruction the decoder reads from an instruction whose bits are `w`. -/
def decodeTableWord (nbits w : Nat) : Option Instr :=
  match tableCode nbits w with
  | some c => (decode c).toOption
  | none => none

end Sys2Proof
end

