-- ==== Sys2Proof/Config.lean ====
section
/-! DEFINITION. Config.lean: what is fixed for one block (the parameters of R9) and the free values the spec leaves open. -/

namespace Sys2Proof

/-- The named parameters of R9, "constant for the lifetime of the motor object" (R46, R294).
Every one is open, so State carries them unchanged and a claim about every state is a claim about
every value of them (log 3). -/
structure Params where
  /-- `RES`, units per full revolution (R222) -/
  res : Nat
  /-- `EPU`, coil-table entries driven per unit (R237) -/
  epu : Nat
  /-- `SEQ[0..7]`, the coil table (R223) -/
  seq : Vector (BitVec 4) 8
  /-- `DEV_ADDR`, the sensor's device address -/
  devAddr : BitVec 7
  /-- `CTRL_MEAS_TRIGGER`, the byte the trigger writes (R208) -/
  ctrlMeasTrigger : Byte
  /-- `POLL_INTERVAL_US`, the wait between two status reads (R196) -/
  pollIntervalUs : BitVec 32
  deriving DecidableEq, Repr

namespace Params

/-- The legal values of R9: 1 ≤ RES ≤ 65535 and 1 ≤ EPU ≤ 8; every value of the others is legal. -/
abbrev wf (p : Params) : Prop :=
  1 ≤ p.res ∧ p.res ≤ 65535 ∧ 1 ≤ p.epu ∧ p.epu ≤ 8

/-- The default coil table of R224. PRESUMED by the spec itself (GK8). -/
def defaultSeq : Vector (BitVec 4) 8 := #v[0x1, 0x3, 0x2, 0x6, 0x4, 0xC, 0x8, 0x9]

/-- The parameters of `State.reset`: the defaults of R9 where it has one (EPU, SEQ, DEV_ADDR,
CTRL_MEAS_TRIGGER). DESIGN CHOICE (log 3): RES = 512, the spec's example value; POLL_INTERVAL_US = 0. -/
def atReset : Params where
  res := 512
  epu := 8
  seq := defaultSeq
  devAddr := 0x76
  ctrlMeasTrigger := 0xB5
  pollIntervalUs := 0

end Params

/-- `W_ACC`, the width of a two's complement datapath that holds every value of the engine (R9, R147).
The model's arithmetic is exact (R142); only claims name this width (log 6). -/
def Config.wAcc : Nat := 136

/-- Free values, one for each number: what an unspecified register holds after an `rst` edge (U1) and
what the working registers hold between cycles (R28). Nothing is known of them (log 5, log 28). -/
opaque Config.freeValue : Nat → Int

/-- A free value for each numerator: the quotient of E11 by zero, a division R161 keeps from happening
inside a cycle and to which R162 gives no result (log 7). -/
opaque Config.quotientByZero : Int → Int

end Sys2Proof
end

