-- ==== Sys2Proof/Machine/State.lean ====
section
/-! DEFINITION. Machine/State.lean: everything the spec gives the machine (10_state.md), as plain data, and its reset. -/

namespace Sys2Proof.Machine

/-- The command in progress, `cur_op` (R30). -/
inductive Op where
  | loadCal | measure | rotateBy | rotateTo
  deriving DecidableEq, Repr

/-- The measurement state, `mstate` (R30, R191). -/
inductive MState where
  | idle | triggered | polling | ready
  deriving DecidableEq, Repr

/-- The next raw group to read, `rd_idx` (R30). -/
inductive RawGroup where
  | pressure | temperature | humidity
  deriving DecidableEq, Repr

/-- The direction of a motor command, `dir` (R30): forward is clockwise and ascending (R225). -/
inductive Dir where
  | backward | forward
  deriving DecidableEq, Repr

/-- The completion codes of `STATUS.err` that are ever produced (R262). -/
inductive CompletionCode where
  | ok | busError | illegalCmd | calNotLoaded | calAlreadyLoaded
  deriving DecidableEq, Repr

/-- Whether the engine runs. The model's own: R30 has no register for it (log 10). `done` is the time
between the commit E22 and the completion of MEASURE. -/
inductive EnginePhase where
  | off | running | done
  deriving DecidableEq, Repr

/-- The calibration register file `cal`, 18 registers (R20). -/
structure Cal where
  t1 : BitVec 16
  t2 : BitVec 16
  t3 : BitVec 16
  p1 : BitVec 16
  p2 : BitVec 16
  p3 : BitVec 16
  p4 : BitVec 16
  p5 : BitVec 16
  p6 : BitVec 16
  p7 : BitVec 16
  p8 : BitVec 16
  p9 : BitVec 16
  h1 : BitVec 8
  h2 : BitVec 16
  h3 : BitVec 8
  h4 : BitVec 12
  h5 : BitVec 12
  h6 : BitVec 8
  deriving DecidableEq, Repr

/-- One RegisterBus transaction (R60): direction, device address, offset of the first byte, byte count
and, for a write, the byte written. -/
structure Transaction where
  write : Bool
  dev : BitVec 7
  off : BitVec 8
  len : Nat
  wdata : Byte
  deriving DecidableEq, Repr

/-- The levels of the input ports at one rising clock edge (R44). `busRespRdata[7:0]` is b[0]. -/
structure PortIn where
  rst : Bool
  cmdValid : Bool
  cmd : CommandWord
  busRespValid : Bool
  busRespErr : Bool
  busRespRdata : BitVec 24
  tickUs : Bool
  deriving DecidableEq, Repr

namespace PortIn

/-- Every input low. -/
def quiet : PortIn where
  rst := false
  cmdValid := false
  cmd := 0
  busRespValid := false
  busRespErr := false
  busRespRdata := 0
  tickUs := false

/-- The host offers a command word (R90). -/
def offer (w : CommandWord) : PortIn := { quiet with cmdValid := true, cmd := w }

/-- RegisterBus answers with success; the low bytes of `rdata` are those of a read. -/
def answer (rdata : BitVec 24) : PortIn := { quiet with busRespValid := true, busRespRdata := rdata }

/-- RegisterBus answers with failure (R76). -/
def failure : PortIn := { quiet with busRespValid := true, busRespErr := true }

/-- One pulse of the delay timer (R280). -/
def tick : PortIn := { quiet with tickUs := true }

/-- Reset is asserted (R290). -/
def reset : PortIn := { quiet with rst := true }

end PortIn

/-- The state of one block (10_state.md). -/
structure State where
  /-- the parameters of R9, never written (log 3) -/
  params : Params
  /-- `cal` (R20) -/
  cal : Cal
  /-- `adc_P` (R24) -/
  adcP : BitVec 20
  /-- `adc_T` (R24) -/
  adcT : BitVec 20
  /-- `adc_H` (R24) -/
  adcH : BitVec 16
  /-- `t_fine` (R24, R26) -/
  tFine : BitVec 32
  /-- `T_RES` (R24) -/
  tRes : BitVec 32
  /-- `P_RES` (R24) -/
  pRes : BitVec 32
  /-- `H_RES` (R24) -/
  hRes : BitVec 32
  /-- `v1` (R28), an exact integer (R142) -/
  v1 : Int
  /-- `v2` (R28), an exact integer (R142) -/
  v2 : Int
  /-- `acc` (R28), an exact integer (R142) -/
  acc : Int
  /-- `t_w` (R28) -/
  tW : BitVec 32
  /-- `p_w` (R28) -/
  pW : BitVec 32
  /-- `h_w` (R28) -/
  hW : BitVec 32
  /-- `busy` (R30, R35) -/
  busy : Bool
  /-- `cur_op` (R30) -/
  curOp : Op
  /-- `mstate` (R30) -/
  mstate : MState
  /-- `cal_idx` (R30), 0 to 16 -/
  calIdx : Fin 17
  /-- `rd_idx` (R30) -/
  rdIdx : RawGroup
  /-- `eng_step` (R30, R103) -/
  engStep : MicroStepCode
  /-- whether the engine runs: the model's own (log 10) -/
  engPhase : EnginePhase
  /-- `units_left` (R30) -/
  unitsLeft : BitVec 16
  /-- `ent_left` (R30) -/
  entLeft : BitVec 4
  /-- `dir` (R30) -/
  dir : Dir
  /-- `step_delay` (R30) -/
  stepDelay : BitVec 32
  /-- `waiting` (R30, R280) -/
  waiting : Bool
  /-- `dly_cnt` (R30, R280) -/
  dlyCnt : BitVec 32
  /-- `pos` (R34) -/
  pos : BitVec 16
  /-- `seq_idx` (R34) -/
  seqIdx : BitVec 3
  /-- `coil` (R34) -/
  coil : BitVec 4
  /-- `cal_valid` (R35) -/
  calValid : Bool
  /-- `res_valid` (R35) -/
  resValid : Bool
  /-- `err` (R35, R262) -/
  err : CompletionCode
  /-- the `done` output (R44, R271) -/
  done : Bool
  /-- the RegisterBus transaction in flight (R45), driven on `bus_req_*` -/
  flight : Option Transaction
  /-- the coming clock edges' inputs, oldest first; beyond the list every input is low (log 2) -/
  inputs : List PortIn
  /-- how many free values have been used (log 5) -/
  freeCount : Nat
  deriving DecidableEq, Repr

/-- Reasons to stop. -/
inductive Fault where
  /-- Raised by the engine's sequencer (Machine/Edge.lean) when the engine runs with `eng_step` 23 to 31,
  values the spec says are never reached (R103, U10). SAFE: the model stops in a state no run reaches (log 17). -/
  | noMicroStep
  deriving DecidableEq, Repr

/-- Reasons for having no meaning. -/
inductive Refusal where
  /-- Raised by `exec`'s arm of an instruction that has no meaning yet; no arm raises it now. SAFE. -/
  | notModelled (mnemonic : String)
  deriving DecidableEq, Repr

namespace State

/-- The block right after reset (R47, R290, R291). A register whose reset value is "unspecified" holds 0:
DESIGN CHOICE (log 4). The parameters are those of log 3, and no input is pending. -/
def reset : State where
  params := Params.atReset
  cal := ⟨0, 0, 0, 0, 0, 0, 0, 0, 0, 0, 0, 0, 0, 0, 0, 0, 0, 0⟩
  adcP := 0
  adcT := 0
  adcH := 0
  tFine := 0
  tRes := 0
  pRes := 0
  hRes := 0
  v1 := 0
  v2 := 0
  acc := 0
  tW := 0
  pW := 0
  hW := 0
  busy := false
  curOp := .loadCal
  mstate := .idle
  calIdx := 0
  rdIdx := .pressure
  engStep := 0
  engPhase := .off
  unitsLeft := 0
  entLeft := 0
  dir := .backward
  stepDelay := 0
  waiting := false
  dlyCnt := 0
  pos := 0
  seqIdx := 0
  coil := 0
  calValid := false
  resValid := false
  err := .ok
  done := false
  flight := none
  inputs := []
  freeCount := 0

end State

end Sys2Proof.Machine
end

