-- ==== Sys2Proof/Machine/Operands.lean ====
section
/-! DEFINITION. Machine/Operands.lean: the spec's arithmetic (R14), the decoding of bus bytes (R67 to R69), the
integer value of every operand register, and the motor's step counts (R227, R231). -/

namespace Sys2Proof.Machine

/-! ### Arithmetic over ℤ (R14, R142) -/

/-- `v >> n`: floor(v / 2^n), for negative v too. -/
def asr (v : Int) (n : Nat) : Int := v / 2 ^ n

/-- `v << n`: v × 2^n, exact. -/
def shl (v : Int) (n : Nat) : Int := v * 2 ^ n

/-- `tdiv(a, b)` for b ≠ 0: truncated toward zero. By zero the spec gives no result: a free value (log 7). -/
def tdiv (a b : Int) : Int := if b = 0 then Config.quotientByZero a else Int.tdiv a b

/-- `clamp(v, lo, hi) = max(lo, min(v, hi))`. -/
def clamp (v lo hi : Int) : Int := max lo (min v hi)

/-- floor(a / b) for b > 0. -/
def floorDiv (a : Int) (b : Nat) : Int := a / (b : Int)

/-- ceil(a / b) for b > 0. -/
def ceilDiv (a : Int) (b : Nat) : Int := -((-a) / (b : Int))

/-! ### Bus bytes (R63, R67 to R69): b[0] is the byte at the lowest offset -/

/-- `b[0]`: `bus_resp_rdata[7:0]` (R44). -/
def byte0 (rdata : BitVec 24) : Byte := rdata.extractLsb' 0 8
/-- `b[1]`: `bus_resp_rdata[15:8]` (R44). -/
def byte1 (rdata : BitVec 24) : Byte := rdata.extractLsb' 8 8
/-- `b[2]`: `bus_resp_rdata[23:16]` (R44). -/
def byte2 (rdata : BitVec 24) : Byte := rdata.extractLsb' 16 8

/-- `{b[1], b[0]}`, the 16-bit pattern of a little-endian field (R67); `le16u` is its unsigned value and
`le16s` its signed value. -/
def le16 (rdata : BitVec 24) : BitVec 16 := byte1 rdata ++ byte0 rdata

/-- `b[0]`, the 8-bit pattern of a one-byte field (R67); `u8` and `s8` are its values. -/
def le8 (rdata : BitVec 24) : BitVec 8 := byte0 rdata

/-- `{b[0][7:0], b[1][3:0]}`, the 12-bit pattern of H4 (R68). -/
def h4Bits (rdata : BitVec 24) : BitVec 12 := byte0 rdata ++ (byte1 rdata).extractLsb' 0 4

/-- `{b[2][7:0], b[1][7:4]}`, the 12-bit pattern of H5 (R68). -/
def h5Bits (rdata : BitVec 24) : BitVec 12 := byte2 rdata ++ (byte1 rdata).extractLsb' 4 4

/-- `be20(b)`: big-endian, the low nibble of b[2] discarded (R69). -/
def be20 (rdata : BitVec 24) : BitVec 20 := byte0 rdata ++ byte1 rdata ++ (byte2 rdata).extractLsb' 4 4

/-- `be16(b)`: big-endian (R69). -/
def be16 (rdata : BitVec 24) : BitVec 16 := byte0 rdata ++ byte1 rdata

/-- Bit 3 of the status byte, the "measuring" flag (R196, mask 0x08). -/
def measuring (rdata : BitVec 24) : Bool := (byte0 rdata).getLsbD 3

/-! ### The value of a calibration register (R20: which are signed) -/

namespace Cal

/-- T1, unsigned -/
def T1 (c : Cal) : Int := c.t1.toNat
/-- T2, signed -/
def T2 (c : Cal) : Int := c.t2.toInt
/-- T3, signed -/
def T3 (c : Cal) : Int := c.t3.toInt
/-- P1, unsigned -/
def P1 (c : Cal) : Int := c.p1.toNat
/-- P2, signed -/
def P2 (c : Cal) : Int := c.p2.toInt
/-- P3, signed -/
def P3 (c : Cal) : Int := c.p3.toInt
/-- P4, signed -/
def P4 (c : Cal) : Int := c.p4.toInt
/-- P5, signed -/
def P5 (c : Cal) : Int := c.p5.toInt
/-- P6, signed -/
def P6 (c : Cal) : Int := c.p6.toInt
/-- P7, signed -/
def P7 (c : Cal) : Int := c.p7.toInt
/-- P8, signed -/
def P8 (c : Cal) : Int := c.p8.toInt
/-- P9, signed -/
def P9 (c : Cal) : Int := c.p9.toInt
/-- H1, unsigned -/
def H1 (c : Cal) : Int := c.h1.toNat
/-- H2, signed -/
def H2 (c : Cal) : Int := c.h2.toInt
/-- H3, unsigned -/
def H3 (c : Cal) : Int := c.h3.toNat
/-- H4, signed -/
def H4 (c : Cal) : Int := c.h4.toInt
/-- H5, signed -/
def H5 (c : Cal) : Int := c.h5.toInt
/-- H6, signed -/
def H6 (c : Cal) : Int := c.h6.toInt

end Cal

namespace State

/-- `adc_P` as an operand: unsigned (R24). -/
def rawP (s : State) : Int := s.adcP.toNat
/-- `adc_T` as an operand: unsigned (R24). -/
def rawT (s : State) : Int := s.adcT.toNat
/-- `adc_H` as an operand: unsigned (R24). -/
def rawH (s : State) : Int := s.adcH.toNat
/-- `t_fine` as an operand: signed (R24). -/
def fine (s : State) : Int := s.tFine.toInt
/-- `pos` as an operand: signed (R34). -/
def position (s : State) : Int := s.pos.toInt

end State

/-! ### The motor's parameters and step counts -/

/-- `HALF = floor(RES / 2)` (R34, R221). -/
def halfTurn (p : Params) : Int := (p.res / 2 : Nat)

/-- Row `i` of the coil table, `SEQ[i]` (R223). -/
def coilRow (p : Params) (i : BitVec 3) : BitVec 4 := p.seq[i.toFin]

/-- The step count of ROTATE_BY (R227): `N = (A × RES) div 360`, then the smaller of N and the units to the
boundary in that direction. -/
def rotateByUnits (p : Params) (pos : Int) (cw : Bool) (angle : Nat) : Nat :=
  let n : Int := (angle * p.res / 360 : Nat)
  (min n (if cw then halfTurn p - pos else halfTurn p + pos)).toNat

/-- `tc = clamp(TGT, −180, 180)` (R230). -/
def clampTarget (target : Int) : Int := clamp target (-180) 180

/-- The direction of ROTATE_TO (R231): forward exactly when `tc × RES > pos × 360`. -/
def rotateToDir (p : Params) (pos target : Int) : Dir :=
  if clampTarget target * p.res > pos * 360 then .forward else .backward

/-- The end position of ROTATE_TO (R231): floor(q) forward and ceil(q) backward, with `q = tc × RES / 360`. -/
def rotateToEnd (p : Params) (pos target : Int) : Int :=
  match rotateToDir p pos target with
  | .forward => floorDiv (clampTarget target * p.res) 360
  | .backward => ceilDiv (clampTarget target * p.res) 360

/-- The step count of ROTATE_TO (R231). -/
def rotateToUnits (p : Params) (pos target : Int) : Nat :=
  match rotateToDir p pos target with
  | .forward => (rotateToEnd p pos target - pos).toNat
  | .backward => (pos - rotateToEnd p pos target).toNat

/-- The table index of activation number `k` of a unit (R234): `k` ascending, `7 − k` descending. -/
def entryIndex (d : Dir) (k : Nat) : BitVec 3 :=
  match d with
  | .forward => BitVec.ofNat 3 k
  | .backward => BitVec.ofNat 3 (7 - k)

end Sys2Proof.Machine
end

