-- ==== Sys2Proof/Machine/Ops.lean ====
section
/-! DEFINITION. Machine/Ops.lean: the operations every instruction shares: the clock edge's input, taking a command
(R91), completion and refusal (R266, R271: they stand for taking and leaving an exception), BusError (R264), waits
(R280), bus transactions (R16, R60), reset (R290), and the advance of `eng_step` (R32). -/

namespace Sys2Proof.Machine

namespace State

/-- The input levels at the coming clock edge (R44): the oldest of `inputs`, or every input low. -/
def input (s : State) : PortIn := s.inputs.headD PortIn.quiet

/-- What every clock edge does before the rest: the input is used up, and the one-clock pulse `done` ends (R44). -/
def clockEdge (s : State) : State := { s with inputs := s.inputs.tail, done := false }

/-! ### Completion codes in place of trap entry and return -/

/-- `Complete(code)` (R271): `busy <- 0; err <- code; waiting <- 0`, `done` pulses. -/
def complete (s : State) (code : CompletionCode) : State :=
  { s with busy := false, err := code, waiting := false, done := true }

/-- A refusal (R91, R266): `err <-` code, `done` pulses, nothing else changes. -/
def refuse (s : State) (code : CompletionCode) : State := { s with err := code, done := true }

/-- `raise BusError` (R17, R264): the command in progress ends at once. LOAD_CAL: `cal_idx <- 0` (R126).
MEASURE: `mstate <- Idle; rd_idx <- 0` (R197). Motor commands make no transaction (R238): nothing happens. -/
def raiseBusError (s : State) : State :=
  match s.curOp with
  | .loadCal => { s with calIdx := 0 }.complete .busError
  | .measure => { s with mstate := .idle, rdIdx := .pressure }.complete .busError
  | .rotateBy => s
  | .rotateTo => s

/-! ### The delay timer -/

/-- `Wait(n)` begins (R280): `dly_cnt <- n; waiting <- 1`. -/
def startWait (s : State) (n : BitVec 32) : State := { s with waiting := true, dlyCnt := n }

/-- A wait ends and the sequence continues (R280): `waiting <- 0`. In a motor command the activation whose
wait it was is then over: `ent_left <- ent_left − 1` (R234). -/
def endWait (s : State) : State :=
  match s.curOp with
  | .loadCal => { s with waiting := false }
  | .measure => { s with waiting := false }
  | .rotateBy => { s with waiting := false, entLeft := s.entLeft - 1 }
  | .rotateTo => { s with waiting := false, entLeft := s.entLeft - 1 }

/-- One clock edge inside a wait (R280): at `dly_cnt` = 0 the wait ends; else a tick counts down. -/
def waitEdge (s : State) (tick : Bool) : State :=
  if s.dlyCnt = 0 then s.endWait
  else if tick then { s with dlyCnt := s.dlyCnt - 1 }
  else s

/-! ### RegisterBus -/

/-- `MemRead(off, n)` (R16) at the device address `DEV_ADDR`. The write data are 0: DESIGN CHOICE, because R60 and R44
give data bytes only to a write and say nothing of `bus_req_wdata` during a read (log 9). -/
def readRequest (s : State) (off : BitVec 8) (len : Nat) : Transaction :=
  { write := false, dev := s.params.devAddr, off := off, len := len, wdata := 0 }

/-- `MemWrite(off, 1, v)` (R16) at the device address `DEV_ADDR`. -/
def writeRequest (s : State) (off : BitVec 8) (v : Byte) : Transaction :=
  { write := true, dev := s.params.devAddr, off := off, len := 1, wdata := v }

/-- The block issues a transaction and stalls until it has ended (R60, R45). -/
def issue (s : State) (t : Transaction) : State := { s with flight := some t }

/-- The transaction in flight has ended (R60). -/
def endTransaction (s : State) : State := { s with flight := none }

/-! ### The engine's sequencing -/

/-- `eng_step` advances by one after a micro-step (R32). -/
def advanceEngine (s : State) : State := { s with engStep := s.engStep + 1 }

/-! ### Free values and reset -/

/-- Free value number `k` from here on (log 5). -/
def free (s : State) (k : Nat) : Int := Config.freeValue (s.freeCount + k)

/-- The engine's working registers hold unspecified values between cycles (R28): free values (log 28). -/
def forgetWork (s : State) : State :=
  { s with
    v1 := s.free 0
    v2 := s.free 1
    acc := s.free 2
    tW := BitVec.ofInt 32 (s.free 3)
    pW := BitVec.ofInt 32 (s.free 4)
    hW := BitVec.ofInt 32 (s.free 5)
    freeCount := s.freeCount + 6 }

/-- A calibration register file of free values, from number `k` on (log 5). -/
def freeCal (s : State) (k : Nat) : Cal where
  t1 := BitVec.ofInt 16 (s.free k)
  t2 := BitVec.ofInt 16 (s.free (k + 1))
  t3 := BitVec.ofInt 16 (s.free (k + 2))
  p1 := BitVec.ofInt 16 (s.free (k + 3))
  p2 := BitVec.ofInt 16 (s.free (k + 4))
  p3 := BitVec.ofInt 16 (s.free (k + 5))
  p4 := BitVec.ofInt 16 (s.free (k + 6))
  p5 := BitVec.ofInt 16 (s.free (k + 7))
  p6 := BitVec.ofInt 16 (s.free (k + 8))
  p7 := BitVec.ofInt 16 (s.free (k + 9))
  p8 := BitVec.ofInt 16 (s.free (k + 10))
  p9 := BitVec.ofInt 16 (s.free (k + 11))
  h1 := BitVec.ofInt 8 (s.free (k + 12))
  h2 := BitVec.ofInt 16 (s.free (k + 13))
  h3 := BitVec.ofInt 8 (s.free (k + 14))
  h4 := BitVec.ofInt 12 (s.free (k + 15))
  h5 := BitVec.ofInt 12 (s.free (k + 16))
  h6 := BitVec.ofInt 8 (s.free (k + 17))

/-- A clock edge with `rst` = 1 (R290, R292): every state element takes its reset value (R47); those whose
reset value is unspecified hold free values afterwards (U1, log 5). The parameters never change (R294), and
the inputs still to come are the environment's. -/
def resetEdge (s : State) : State :=
  { State.reset with
    params := s.params
    cal := s.freeCal 6
    adcP := BitVec.ofInt 20 (s.free 24)
    adcT := BitVec.ofInt 20 (s.free 25)
    adcH := BitVec.ofInt 16 (s.free 26)
    tFine := BitVec.ofInt 32 (s.free 27)
    tRes := BitVec.ofInt 32 (s.free 28)
    pRes := BitVec.ofInt 32 (s.free 29)
    hRes := BitVec.ofInt 32 (s.free 30)
    v1 := s.free 0
    v2 := s.free 1
    acc := s.free 2
    tW := BitVec.ofInt 32 (s.free 3)
    pW := BitVec.ofInt 32 (s.free 4)
    hW := BitVec.ofInt 32 (s.free 5)
    inputs := s.inputs
    freeCount := s.freeCount + 31 }

end State

/-! ### Taking a command -/

/-- A legal command word at the port (R90, R91): while busy it is not taken and has no effect; refused with
`refusal` where the admission check fails; otherwise accepted, with `started` the state in which the command's
sequence begins. -/
def takeCommand (s : State) (refusal : Option CompletionCode) (started : State) : Host.Outcome State Fault Refusal :=
  if s.busy then .next s
  else match refusal with
    | some code => .next (s.refuse code)
    | none => .next started

end Sys2Proof.Machine
end

