-- ==== Sys2Proof/Machine/Calibration.lean ====
section
/-! DEFINITION. Machine/Calibration.lean: LOAD_CAL (40_calibration_load.md): its acceptance, the table of its 17 reads
(R122), and what the answer to each does. -/

namespace Sys2Proof.Machine

/-- `OFF[cal_idx]` (R122, R65). -/
def calOffset (i : Fin 17) : BitVec 8 :=
  match i.val with
  | 0 => 0x88
  | 1 => 0x8A
  | 2 => 0x8C
  | 3 => 0x8E
  | 4 => 0x90
  | 5 => 0x92
  | 6 => 0x94
  | 7 => 0x96
  | 8 => 0x98
  | 9 => 0x9A
  | 10 => 0x9C
  | 11 => 0x9E
  | 12 => 0xA1
  | 13 => 0xE1
  | 14 => 0xE3
  | 15 => 0xE4
  | _ => 0xE7

/-- `N[cal_idx]` (R122). -/
def calLen (i : Fin 17) : Nat :=
  match i.val with
  | 12 => 1
  | 14 => 1
  | 15 => 3
  | 16 => 1
  | _ => 2

/-- The register or registers of row `cal_idx` written from the bytes read (R122, R123). -/
def writeCalRow (i : Fin 17) (rdata : BitVec 24) (c : Cal) : Cal :=
  match i.val with
  | 0 => { c with t1 := le16 rdata }
  | 1 => { c with t2 := le16 rdata }
  | 2 => { c with t3 := le16 rdata }
  | 3 => { c with p1 := le16 rdata }
  | 4 => { c with p2 := le16 rdata }
  | 5 => { c with p3 := le16 rdata }
  | 6 => { c with p4 := le16 rdata }
  | 7 => { c with p5 := le16 rdata }
  | 8 => { c with p6 := le16 rdata }
  | 9 => { c with p7 := le16 rdata }
  | 10 => { c with p8 := le16 rdata }
  | 11 => { c with p9 := le16 rdata }
  | 12 => { c with h1 := le8 rdata }
  | 13 => { c with h2 := le16 rdata }
  | 14 => { c with h3 := le8 rdata }
  | 15 => { c with h4 := h4Bits rdata, h5 := h5Bits rdata }
  | _ => { c with h6 := le8 rdata }

/-- LOAD_CAL at the port (R120, R121): refused with CAL_ALREADY_LOADED while `cal_valid` = 1; else its sequence
begins with row 0. -/
def execLoadCal (s : State) : Host.Outcome State Fault Refusal :=
  takeCommand s (if s.calValid then some .calAlreadyLoaded else none)
    { s with busy := true, curOp := .loadCal, calIdx := 0 }

/-- The read LOAD_CAL makes next: row `cal_idx` (R122). -/
def calRequest (s : State) : Transaction := s.readRequest (calOffset s.calIdx) (calLen s.calIdx)

/-- The read of row `cal_idx` has succeeded (R123): its registers are written; then the next row, or after row 16
`cal_valid <- 1; cal_idx <- 0; Complete(OK)` (R125). -/
def calAnswered (s : State) (rdata : BitVec 24) : State :=
  let s₁ := { s with cal := writeCalRow s.calIdx rdata s.cal }
  if s.calIdx = 16 then { s₁ with calValid := true, calIdx := 0 }.complete .ok
  else { s₁ with calIdx := s.calIdx + 1 }

end Sys2Proof.Machine
end

