-- ==== Sys2Proof/Machine/Engine.lean ====
section
/-! DEFINITION. Machine/Engine.lean: the compensation engine's micro-steps E0 to E22 (41_compensation_engine.md), each
with the expression of its rule over the exact integers (R142). The expressions are the spec's
general-knowledge passages GK3 to GK5 (log 14). -/

namespace Sys2Proof.Machine

/-- The engine's next state after a micro-step other than E10 and E22: `eng_step` advances by one (R32). -/
def microStep (s : State) : Host.Outcome State Fault Refusal := .next s.advanceEngine

/-! ### Temperature phase -/

/-- E0 (R150): `v1 <- (((adc_T >> 3) − (cal.T1 << 1)) × cal.T2) >> 11`. -/
def execE0 (s : State) : Host.Outcome State Fault Refusal :=
  microStep { s with v1 := asr ((asr s.rawT 3 - shl s.cal.T1 1) * s.cal.T2) 11 }

/-- E1 (R151): `d = (adc_T >> 4) − cal.T1`; `v2 <- (((d × d) >> 12) × cal.T3) >> 14`. -/
def execE1 (s : State) : Host.Outcome State Fault Refusal :=
  let d := asr s.rawT 4 - s.cal.T1
  microStep { s with v2 := asr (asr (d * d) 12 * s.cal.T3) 14 }

/-- E2 (R152): `t_fine <- v1 + v2`. -/
def execE2 (s : State) : Host.Outcome State Fault Refusal :=
  microStep { s with tFine := BitVec.ofInt 32 (s.v1 + s.v2) }

/-- E3 (R153): `t_w <- (t_fine × 5 + 128) >> 8`. -/
def execE3 (s : State) : Host.Outcome State Fault Refusal :=
  microStep { s with tW := BitVec.ofInt 32 (asr (s.fine * 5 + 128) 8) }

/-! ### Pressure phase -/

/-- E4 (R155): `v1 <- t_fine − 128000`. -/
def execE4 (s : State) : Host.Outcome State Fault Refusal :=
  microStep { s with v1 := s.fine - 128000 }

/-- E5 (R156): `v2 <- v1 × v1 × cal.P6`. -/
def execE5 (s : State) : Host.Outcome State Fault Refusal :=
  microStep { s with v2 := s.v1 * s.v1 * s.cal.P6 }

/-- E6 (R157): `v2 <- v2 + ((v1 × cal.P5) << 17)`. -/
def execE6 (s : State) : Host.Outcome State Fault Refusal :=
  microStep { s with v2 := s.v2 + shl (s.v1 * s.cal.P5) 17 }

/-- E7 (R158): `v2 <- v2 + (cal.P4 << 35)`. -/
def execE7 (s : State) : Host.Outcome State Fault Refusal :=
  microStep { s with v2 := s.v2 + shl s.cal.P4 35 }

/-- E8 (R159): `v1 <- ((v1 × v1 × cal.P3) >> 8) + ((v1 × cal.P2) << 12)`. -/
def execE8 (s : State) : Host.Outcome State Fault Refusal :=
  microStep { s with v1 := asr (s.v1 * s.v1 * s.cal.P3) 8 + shl (s.v1 * s.cal.P2) 12 }

/-- E9 (R160), the denominator: `v1 <- (((1 << 47) + v1) × cal.P1) >> 33`. -/
def execE9 (s : State) : Host.Outcome State Fault Refusal :=
  microStep { s with v1 := asr ((shl 1 47 + s.v1) * s.cal.P1) 33 }

/-- E10 (R161), the zero-denominator test: the sentinel 0 and a jump to E16, or the start of the division. -/
def execE10 (s : State) : Host.Outcome State Fault Refusal :=
  if s.v1 = 0 then .next { s with pW := 0, engStep := 16 }
  else .next { s with acc := 1048576 - s.rawP, engStep := 11 }

/-- E11 (R162), the division: `acc <- tdiv(((acc << 31) − v2) × 3125, v1)`. -/
def execE11 (s : State) : Host.Outcome State Fault Refusal :=
  microStep { s with acc := tdiv ((shl s.acc 31 - s.v2) * 3125) s.v1 }

/-- E12 (R163): `v1 <- (cal.P9 × (acc >> 13) × (acc >> 13)) >> 25`. -/
def execE12 (s : State) : Host.Outcome State Fault Refusal :=
  microStep { s with v1 := asr (s.cal.P9 * asr s.acc 13 * asr s.acc 13) 25 }

/-- E13 (R164): `v2 <- (cal.P8 × acc) >> 19`. -/
def execE13 (s : State) : Host.Outcome State Fault Refusal :=
  microStep { s with v2 := asr (s.cal.P8 * s.acc) 19 }

/-- E14 (R165): `acc <- ((acc + v1 + v2) >> 8) + (cal.P7 << 4)`. -/
def execE14 (s : State) : Host.Outcome State Fault Refusal :=
  microStep { s with acc := asr (s.acc + s.v1 + s.v2) 8 + shl s.cal.P7 4 }

/-- E15 (R166): `p_w <- acc mod 2^32`. -/
def execE15 (s : State) : Host.Outcome State Fault Refusal :=
  microStep { s with pW := BitVec.ofInt 32 s.acc }

/-! ### Humidity phase -/

/-- E16 (R167): `acc <- t_fine − 76800`. -/
def execE16 (s : State) : Host.Outcome State Fault Refusal :=
  microStep { s with acc := s.fine - 76800 }

/-- E17 (R168): `acc <- a × b`, with a from `adc_H`, H4 and H5 and b from H2, H3 and H6. -/
def execE17 (s : State) : Host.Outcome State Fault Refusal :=
  let h := s.acc
  let a := asr ((shl s.rawH 14 - shl s.cal.H4 20 - s.cal.H5 * h) + 16384) 15
  let b1 := asr (h * s.cal.H6) 10
  let b2 := asr (h * s.cal.H3) 11 + 32768
  let b := asr ((asr (b1 * b2) 10 + 2097152) * s.cal.H2 + 8192) 14
  microStep { s with acc := a * b }

/-- E18 (R169): `acc <- h − (((((h >> 15) × (h >> 15)) >> 7) × cal.H1) >> 4)`. -/
def execE18 (s : State) : Host.Outcome State Fault Refusal :=
  let h := s.acc
  microStep { s with acc := h - asr (asr (asr h 15 * asr h 15) 7 * s.cal.H1) 4 }

/-- E19 (R170), the lower clamp: `if acc < 0 then acc <- 0`. -/
def execE19 (s : State) : Host.Outcome State Fault Refusal :=
  microStep { s with acc := if s.acc < 0 then 0 else s.acc }

/-- E20 (R171), the upper clamp: `if acc > 419430400 then acc <- 419430400`. -/
def execE20 (s : State) : Host.Outcome State Fault Refusal :=
  microStep { s with acc := if s.acc > 419430400 then 419430400 else s.acc }

/-- E21 (R172): `h_w <- acc >> 12`. -/
def execE21 (s : State) : Host.Outcome State Fault Refusal :=
  microStep { s with hW := BitVec.ofInt 32 (asr s.acc 12) }

/-! ### Commit -/

/-- E22 (R173): in one step `T_RES <- t_w; P_RES <- p_w; H_RES <- h_w; res_valid <- 1; eng_step <- 0`, and the
engine is done. -/
def execE22 (s : State) : Host.Outcome State Fault Refusal :=
  .next { s with tRes := s.tW, pRes := s.pW, hRes := s.hW, resValid := true, engStep := 0, engPhase := .done }

end Sys2Proof.Machine
end

