-- ==== Sys2Proof/Machine/Measurement.lean ====
section
/-! DEFINITION. Machine/Measurement.lean: MEASURE (42_measurement_controller.md): its acceptance, its transactions, what
each answer does, and its completion. -/

namespace Sys2Proof.Machine

/-- MEASURE at the port (R190, R192): refused with CAL_NOT_LOADED while `cal_valid` = 0; else its sequence begins,
`mstate` still Idle (R194). -/
def execMeasure (s : State) : Host.Outcome State Fault Refusal :=
  takeCommand s (if s.calValid then none else some .calNotLoaded)
    { s with busy := true, curOp := .measure }

/-- The offset of a raw group (R64, R199 to R201). -/
def rawOffset : RawGroup → BitVec 8
  | .pressure => 0xF7
  | .temperature => 0xFA
  | .humidity => 0xFD

/-- The byte count of a raw group (R199 to R201). -/
def rawLen : RawGroup → Nat
  | .pressure => 3
  | .temperature => 3
  | .humidity => 2

/-- The transaction MEASURE makes in its present state: the trigger write (R194), a status read (R196) or a raw
read (R199 to R201); none in Triggered (R195). -/
def measureRequest (s : State) : Option Transaction :=
  match s.mstate with
  | .idle => some (s.writeRequest 0xF4 s.params.ctrlMeasTrigger)
  | .triggered => none
  | .polling => some (s.readRequest 0xF3 1)
  | .ready => some (s.readRequest (rawOffset s.rdIdx) (rawLen s.rdIdx))

/-- A status read has succeeded (R196, R198): with bit 3 set the poll interval is waited, else the raw reads follow. -/
def statusAnswered (s : State) (rdata : BitVec 24) : State :=
  if measuring rdata then s.startWait s.params.pollIntervalUs
  else { s with mstate := .ready }

/-- A raw read has succeeded: R199, R200; after the humidity group (R201) the engine starts at E0 (R203). -/
def rawAnswered (s : State) (rdata : BitVec 24) : State :=
  match s.rdIdx with
  | .pressure => { s with adcP := be20 rdata, rdIdx := .temperature }
  | .temperature => { s with adcT := be20 rdata, rdIdx := .humidity }
  | .humidity => { s with adcH := be16 rdata, rdIdx := .pressure, engStep := 0, engPhase := .running }

/-- The transaction of a MEASURE has succeeded (R194, R196, R199 to R201). Triggered makes none: an answer there
changes nothing (log 18). -/
def measureAnswered (s : State) (rdata : BitVec 24) : State :=
  match s.mstate with
  | .idle => { s with mstate := .triggered }
  | .triggered => s
  | .polling => statusAnswered s rdata
  | .ready => rawAnswered s rdata

/-- After E22 (R204): `mstate <- Idle; Complete(OK)`. The engine is off, and its working registers hold
unspecified values until the next cycle writes them (R28). -/
def finishMeasure (s : State) : State :=
  { s with mstate := .idle, engPhase := .off }.forgetWork.complete .ok

end Sys2Proof.Machine
end

