-- ==== Sys2Proof/Machine/Motor.lean ====
section
/-! DEFINITION. Machine/Motor.lean: ROTATE_BY, ROTATE_TO and the nudges (43_motor_sequencer.md): their acceptance, and
the unit procedure that drives the coils and moves `pos` (R234 to R236). -/

namespace Sys2Proof.Machine

/-- A motor command starts (R234): the operands are latched, and the first unit, if there is one, has all its
entries to drive. -/
def startMotor (s : State) (op : Op) (d : Dir) (units delay : Nat) : State :=
  { s with
    busy := true
    curOp := op
    dir := d
    unitsLeft := BitVec.ofNat 16 units
    entLeft := if units = 0 then 0 else BitVec.ofNat 4 s.params.epu
    stepDelay := BitVec.ofNat 32 delay }

/-- The direction of ROTATE_BY: `cw` alone decides (R228, R225). -/
def cwDir (cw : Bool) : Dir := if cw then .forward else .backward

/-- ROTATE_BY taken at the port (R226, R227): no admission check (R91). -/
def takeRotateBy (s : State) (cw : Bool) (angle delay : Nat) : Host.Outcome State Fault Refusal :=
  takeCommand s none (startMotor s .rotateBy (cwDir cw) (rotateByUnits s.params s.position cw angle) delay)

/-- `ROTATE_BY cw|ccw, A, D` (R226). -/
def execRotateBy (cw : Bool) (angle delay : Nat) (s : State) : Host.Outcome State Fault Refusal :=
  takeRotateBy s cw angle delay

/-- `NUDGE_CW D` is `ROTATE_BY cw, 1, D` (R112). -/
def execNudgeCw (delay : Nat) (s : State) : Host.Outcome State Fault Refusal :=
  takeRotateBy s true 1 delay

/-- `NUDGE_CCW D` is `ROTATE_BY ccw, 1, D` (R112). -/
def execNudgeCcw (delay : Nat) (s : State) : Host.Outcome State Fault Refusal :=
  takeRotateBy s false 1 delay

/-- `ROTATE_TO TGT, D` (R230, R231): no admission check (R91). -/
def execRotateTo (target : Int) (delay : Nat) (s : State) : Host.Outcome State Fault Refusal :=
  takeCommand s none
    (startMotor s .rotateTo (rotateToDir s.params s.position target)
      (rotateToUnits s.params s.position target) delay)

/-- `Activate(i)` (R235): `coil <- SEQ[i]; seq_idx <- i; Wait(step_delay)`, with `i` the next index of the unit
(R234): `EPU − ent_left` entries of it are already driven. -/
def activate (s : State) : State :=
  let i := entryIndex s.dir (s.params.epu - s.entLeft.toNat)
  { s with coil := coilRow s.params i, seqIdx := i }.startWait s.stepDelay

/-- The end of a unit (R234, R236): `pos` moves by one, `units_left` falls by one, and a further unit has all its
entries to drive. -/
def endUnit (s : State) : State :=
  { s with
    pos := (match s.dir with | .forward => s.pos + 1 | .backward => s.pos - 1)
    unitsLeft := s.unitsLeft - 1
    entLeft := if s.unitsLeft - 1 = 0 then 0 else BitVec.ofNat 4 s.params.epu }

/-- What a motor command does next when it is not waiting (R234): nothing left, `Complete(OK)`; entries left,
the next activation; else the unit ends. -/
def motorAdvance (s : State) : State :=
  if s.unitsLeft = 0 then s.complete .ok
  else if s.entLeft = 0 then endUnit s
  else activate s

end Sys2Proof.Machine
end

