-- ==== Sys2Proof/Machine/Dispatch.lean ====
section
/-! DEFINITION. Machine/Dispatch.lean: one arm for each constructor of Instr, each one call of its meaning. -/

namespace Sys2Proof.Machine

def exec (i : Instr) (s : State) : Host.Outcome State Fault Refusal :=
  match i with
  | .loadCal => Sys2Proof.Machine.execLoadCal s
  | .measure => Sys2Proof.Machine.execMeasure s
  | .rotateBy cw angle delay => Sys2Proof.Machine.execRotateBy cw angle delay s
  | .rotateTo target delay => Sys2Proof.Machine.execRotateTo target delay s
  | .nudgeCw delay => Sys2Proof.Machine.execNudgeCw delay s
  | .nudgeCcw delay => Sys2Proof.Machine.execNudgeCcw delay s
  | .e0 => Sys2Proof.Machine.execE0 s
  | .e1 => Sys2Proof.Machine.execE1 s
  | .e2 => Sys2Proof.Machine.execE2 s
  | .e3 => Sys2Proof.Machine.execE3 s
  | .e4 => Sys2Proof.Machine.execE4 s
  | .e5 => Sys2Proof.Machine.execE5 s
  | .e6 => Sys2Proof.Machine.execE6 s
  | .e7 => Sys2Proof.Machine.execE7 s
  | .e8 => Sys2Proof.Machine.execE8 s
  | .e9 => Sys2Proof.Machine.execE9 s
  | .e10 => Sys2Proof.Machine.execE10 s
  | .e11 => Sys2Proof.Machine.execE11 s
  | .e12 => Sys2Proof.Machine.execE12 s
  | .e13 => Sys2Proof.Machine.execE13 s
  | .e14 => Sys2Proof.Machine.execE14 s
  | .e15 => Sys2Proof.Machine.execE15 s
  | .e16 => Sys2Proof.Machine.execE16 s
  | .e17 => Sys2Proof.Machine.execE17 s
  | .e18 => Sys2Proof.Machine.execE18 s
  | .e19 => Sys2Proof.Machine.execE19 s
  | .e20 => Sys2Proof.Machine.execE20 s
  | .e21 => Sys2Proof.Machine.execE21 s
  | .e22 => Sys2Proof.Machine.execE22 s

end Sys2Proof.Machine
end

