-- ==== Sys2Proof/Machine/Edge.lean ====
section
/-! DEFINITION. Machine/Edge.lean: what one rising clock edge does (R44): reset, taking a command word, and advancing
the command in progress by one event in the order of R31. -/

namespace Sys2Proof.Machine

/-- The transaction the command in progress makes next, from its sequencing state: a row of LOAD_CAL (R122) or one
of MEASURE's (R66). Motor commands make none (R238). -/
def nextRequest (s : State) : Option Transaction :=
  match s.curOp with
  | .loadCal => some (calRequest s)
  | .measure => measureRequest s
  | .rotateBy => none
  | .rotateTo => none

/-- What a command does next where it makes no transaction: MEASURE leaves Triggered at once (R195), a motor command
drives its units (R234). LOAD_CAL always has a read to make. -/
def internalAdvance (s : State) : State :=
  match s.curOp with
  | .loadCal => s
  | .measure => { s with mstate := .polling }
  | .rotateBy => motorAdvance s
  | .rotateTo => motorAdvance s

/-- The command in progress has nothing in flight, waits for nothing and runs no engine: its next event (R31). -/
def sequenceAdvance (s : State) : State :=
  match nextRequest s with
  | some t => s.issue t
  | none => internalAdvance s

/-- The transaction in flight is answered (R60, R76): a failure raises BusError and no byte is used; a success goes
to the command in progress. A motor command makes no transaction: an answer there changes nothing (log 18). -/
def receive (s : State) (failed : Bool) (rdata : BitVec 24) : State :=
  if failed then s.endTransaction.raiseBusError
  else
    match s.curOp with
    | .loadCal => calAnswered s.endTransaction rdata
    | .measure => measureAnswered s.endTransaction rdata
    | .rotateBy => s.endTransaction
    | .rotateTo => s.endTransaction

/-- The sequencer outside the engine: inside a wait only the timer acts (R17, R280); with a transaction in flight the
block is stalled until the response (R45); else the sequence advances. -/
def sequenceEdge (s : State) (inp : PortIn) : State :=
  if s.waiting then s.waitEdge inp.tickUs
  else
    match s.flight with
    | some _ => if inp.busRespValid then receive s inp.busRespErr inp.busRespRdata else s
    | none => sequenceAdvance s

/-- One edge of the command in progress: the micro-step `eng_step` names while the engine runs (R203), the completion
of MEASURE once the engine is done (R204), else the sequencer. -/
def busyEdge (s : State) (inp : PortIn) : Host.Outcome State Fault Refusal :=
  match s.engPhase with
  | .running =>
    match decode (.microStep s.engStep) with
    | .ok i => exec i s
    | .error _ => .fault .noMicroStep
  | .done => .next (finishMeasure s)
  | .off => .next (sequenceEdge s inp)

/-- One edge while idle: a word offered at the port is taken (R90), decoded and either executed or refused with
ILLEGAL_CMD (R91, R100); without one the block waits (R291). -/
def idleEdge (s : State) (inp : PortIn) : Host.Outcome State Fault Refusal :=
  if inp.cmdValid then
    match decode (.command inp.cmd) with
    | .ok i => exec i s
    | .error _ => .next (s.refuse .illegalCmd)
  else .next s

/-- One rising edge of `clk`: `rst` before everything else (R290, R292), then the command in progress, or the port. -/
def onEdge (s : State) : Host.Outcome State Fault Refusal :=
  let inp := s.input
  let s₁ := s.clockEdge
  if inp.rst then .next s₁.resetEdge
  else if s₁.busy then busyEdge s₁ inp
  else idleEdge s₁ inp

/-- The state in which the very next edge runs the code (log 13): a command word is offered at the idle block's port;
a micro-step is the `eng_step` of an engine that runs in the Ready state of a MEASURE. -/
def fetchCode (s : State) : Code → State
  | .command w => { s with busy := false, inputs := .offer w :: s.inputs }
  | .microStep k =>
    { s with
      busy := true
      curOp := .measure
      mstate := .ready
      rdIdx := .pressure
      engPhase := .running
      engStep := k
      waiting := false
      flight := none
      inputs := .quiet :: s.inputs }

end Sys2Proof.Machine
end

