-- ==== Sys2Proof/Machine/Step.lean ====
section
/-! DEFINITION. Machine/Step.lean: one step is one clock edge (log 1), and where the next instruction is fetched. -/

namespace Sys2Proof.Machine

/-- One step: one rising edge of `clk` (R44). -/
def step (s : State) : Host.Outcome State Fault Refusal := onEdge s

/-- `s` with the instruction of an opcode-table row where `step` takes its next instruction (log 13). Bits beyond the
row's code leave `s` as it is. -/
def State.withFetchWord (s : State) (nbits w : Nat) : State :=
  match tableCode nbits w with
  | some c => fetchCode s c
  | none => s

end Sys2Proof.Machine
end

