-- ==== Sys2Proof/Machine/Events.lean ====
section
/-! DEFINITION. Machine/Events.lean: the observable events of R31, read off one step's two states. The
form of the events, where R31 leaves it open, is the model's (log 29). -/

namespace Sys2Proof.Machine

/-- An observable event (R31). -/
inductive Event where
  /-- a command is accepted: `busy` 0 → 1 -/
  | accepted (op : Op)
  /-- a RegisterBus transaction starts -/
  | requested (t : Transaction)
  /-- the transaction in flight ends, with the answer's failure flag and the 24 bits of the port (log 29) -/
  | answered (t : Transaction) (failed : Bool) (rdata : BitVec 24)
  /-- the coil outputs change -/
  | coilsChanged (coil : BitVec 4)
  /-- a wait starts -/
  | waitStarted (n : BitVec 32)
  /-- a wait ends -/
  | waitEnded
  /-- `mstate` changes -/
  | mstateChanged (m : MState)
  /-- the result triple is committed -/
  | committed (t p h : BitVec 32)
  /-- `pos` changes -/
  | posChanged (pos : BitVec 16)
  /-- the command completes: `busy` 1 → 0, `err` written, `done` pulse -/
  | completed (code : CompletionCode)
  /-- a command word is refused: `err` written, `done` pulse; R31's list does not name it, the model shows it (log 29) -/
  | refused (code : CompletionCode)
  deriving DecidableEq, Repr

/-- The event `e` if `b`. -/
def eventIf (b : Bool) (e : Event) : List Event := if b then [e] else []

/-- The event of a transaction that starts in a step. -/
def requestEvents : Option Transaction → Option Transaction → List Event
  | none, some t => [.requested t]
  | _, _ => []

/-- The event of a transaction that ends in a step. DESIGN CHOICE: it shows all 24 bits of `bus_resp_rdata`, for a write,
for a failure and beyond the N bytes of a read too, where the spec gives them no meaning (log 29). -/
def answerEvents (inp : PortIn) : Option Transaction → Option Transaction → List Event
  | some t, none => [.answered t inp.busRespErr inp.busRespRdata]
  | _, _ => []

/-- The observable events of a step from `s` to `s'` (R31), in the order in which a command produces them. DESIGN CHOICE:
a reset edge shows no event, although it may change the coils, `mstate` and `pos` (R292): R31 speaks of the events a
command produces (log 29). -/
def stepEvents (s s' : State) : List Event :=
  if s.input.rst then []
  else
    eventIf (!s.busy && s'.busy) (.accepted s'.curOp)
    ++ answerEvents s.input s.flight s'.flight
    ++ requestEvents s.flight s'.flight
    ++ eventIf (s.waiting && !s'.waiting) .waitEnded
    ++ eventIf (s.coil != s'.coil) (.coilsChanged s'.coil)
    ++ eventIf (!s.waiting && s'.waiting) (.waitStarted s'.dlyCnt)
    ++ eventIf (s.engPhase != .done && s'.engPhase == .done) (.committed s'.tRes s'.pRes s'.hRes)
    ++ eventIf (s.mstate != s'.mstate) (.mstateChanged s'.mstate)
    ++ eventIf (s.pos != s'.pos) (.posChanged s'.pos)
    ++ eventIf (s.busy && !s'.busy) (.completed s'.err)
    ++ eventIf (!s.busy && !s'.busy && s'.done) (.refused s'.err)

end Sys2Proof.Machine
end

