-- ==== Sys2Proof/Machine/Flags.lean ====
section
/-! DEFINITION. Machine/Flags.lean: the numbering of the coded registers, the host-visible registers `x[0..5]` with
the flags of STATUS (R35, R40, R41), and the output ports (R44). -/

namespace Sys2Proof.Machine

/-- The value of `err` (R262). -/
def CompletionCode.bits : CompletionCode → BitVec 4
  | .ok => 0
  | .busError => 1
  | .illegalCmd => 2
  | .calNotLoaded => 3
  | .calAlreadyLoaded => 4

/-- The value of `mstate` (R30). -/
def MState.bits : MState → BitVec 2
  | .idle => 0
  | .triggered => 1
  | .polling => 2
  | .ready => 3

/-- The value of `cur_op` (R30). -/
def Op.bits : Op → BitVec 2
  | .loadCal => 0
  | .measure => 1
  | .rotateBy => 2
  | .rotateTo => 3

/-- The value of `rd_idx` (R30). -/
def RawGroup.bits : RawGroup → BitVec 2
  | .pressure => 0
  | .temperature => 1
  | .humidity => 2

/-- The value of `dir` (R30). -/
def Dir.bits : Dir → BitVec 1
  | .backward => 0
  | .forward => 1

namespace State

/-- `x[0]`, STATUS (R41): busy [0], cal_valid [1], res_valid [2], 0 [3], err [7:4], mstate [9:8], 0 above. -/
def status (s : State) : HostWord :=
  (0 : BitVec 22) ++ s.mstate.bits ++ s.err.bits ++ (0 : BitVec 1) ++ BitVec.ofBool s.resValid
    ++ BitVec.ofBool s.calValid ++ BitVec.ofBool s.busy

/-- `x[5]`, MOTOR (R40): coil [3:0], seq_idx [6:4], 0 above. -/
def motorView (s : State) : HostWord := (0 : BitVec 25) ++ s.seqIdx ++ s.coil

/-- `rd_data` for `rd_sel` (R40, R44). A read has no side effect. `x[1..3]` answer whatever the register
holds, also before the first result (R42, U8, log 27). -/
def hostRead (s : State) (sel : BitVec 3) : HostWord :=
  match sel.toNat with
  | 0 => s.status
  | 1 => s.tRes
  | 2 => s.pRes
  | 3 => s.hRes
  | 4 => s.pos.signExtend 32
  | 5 => s.motorView
  | _ => 0

end State

/-- The levels of the output ports (R44). -/
structure PortOut where
  cmdReady : Bool
  done : Bool
  rdData : HostWord
  busReqValid : Bool
  busReqWrite : Bool
  busReqDev : BitVec 7
  busReqOff : BitVec 8
  busReqLen : BitVec 2
  busReqWdata : Byte
  coilOut : BitVec 4
  deriving DecidableEq, Repr

/-- The outputs of a state, with `sel` on `rd_sel` (R44). Without a transaction the request fields are 0:
DESIGN CHOICE, `bus_req_valid` is then low; and during a read `bus_req_wdata` is 0, which is the model's choice too
(`State.readRequest`, log 9). -/
def State.ports (s : State) (sel : BitVec 3) : PortOut where
  cmdReady := !s.busy
  done := s.done
  rdData := s.hostRead sel
  busReqValid := s.flight.isSome
  busReqWrite := (s.flight.map (·.write)).getD false
  busReqDev := (s.flight.map (·.dev)).getD 0
  busReqOff := (s.flight.map (·.off)).getD 0
  busReqLen := (s.flight.map fun t => BitVec.ofNat 2 t.len).getD 0
  busReqWdata := (s.flight.map (·.wdata)).getD 0
  coilOut := s.coil

end Sys2Proof.Machine
end

