-- ==== Sys2Proof/Machine/Reference.lean ====
section
/-! DEFINITION. Machine/Reference.lean: the spec's closed forms of the engine's phases (R154, R174, R175) and the motor's
definitions over exact rationals (R221, R226, R230). No step uses them: claims compare the machine with them. -/

namespace Sys2Proof.Machine

/-! ### The engine's phases as functions -/

/-- `tf` of CompT (R154). -/
def compFine (adcT T1 T2 T3 : Int) : Int :=
  asr ((asr adcT 3 - shl T1 1) * T2) 11 + asr (asr ((asr adcT 4 - T1) * (asr adcT 4 - T1)) 12 * T3) 14

/-- `T` of CompT (R154). -/
def compT (adcT T1 T2 T3 : Int) : Int := asr (compFine adcT T1 T2 T3 * 5 + 128) 8

/-- `d` of CompP, the denominator (R174). -/
def compDenominator (tf P1 P2 P3 : Int) : Int :=
  let a := tf - 128000
  let c := asr (a * a * P3) 8 + shl (a * P2) 12
  asr ((shl 1 47 + c) * P1) 33

/-- The value of CompP before `mod 2^32`, for a denominator other than 0 (R174). -/
def compPExact (adcP tf P1 P2 P3 P4 P5 P6 P7 P8 P9 : Int) : Int :=
  let a := tf - 128000
  let b := a * a * P6 + shl (a * P5) 17 + shl P4 35
  let d := compDenominator tf P1 P2 P3
  let p := Int.tdiv ((shl (1048576 - adcP) 31 - b) * 3125) d
  let e := asr (P9 * asr p 13 * asr p 13) 25
  let f := asr (P8 * p) 19
  asr (p + e + f) 8 + shl P7 4

/-- CompP (R174): 0 for a zero denominator, else the exact value modulo 2^32. -/
def compP (adcP tf P1 P2 P3 P4 P5 P6 P7 P8 P9 : Int) : Int :=
  if compDenominator tf P1 P2 P3 = 0 then 0
  else compPExact adcP tf P1 P2 P3 P4 P5 P6 P7 P8 P9 % 2 ^ 32

/-- `h3` of CompH, before the clamp (R175). -/
def compHUnclamped (adcH tf H1 H2 H3 H4 H5 H6 : Int) : Int :=
  let h := tf - 76800
  let a := asr ((shl adcH 14 - shl H4 20 - H5 * h) + 16384) 15
  let b1 := asr (h * H6) 10
  let b2 := asr (h * H3) 11 + 32768
  let b := asr ((asr (b1 * b2) 10 + 2097152) * H2 + 8192) 14
  let h2 := a * b
  h2 - asr (asr (asr h2 15 * asr h2 15) 7 * H1) 4

/-- CompH (R175): `clamp(h3, 0, 419430400) >> 12`. -/
def compH (adcH tf H1 H2 H3 H4 H5 H6 : Int) : Int :=
  asr (clamp (compHUnclamped adcH tf H1 H2 H3 H4 H5 H6) 0 419430400) 12

namespace State

/-- The `t_fine` the engine computes from the raw temperature and the calibration (R154). -/
def cycleFine (s : State) : Int := compFine s.rawT s.cal.T1 s.cal.T2 s.cal.T3

/-- The temperature result of a cycle (R154). -/
def cycleT (s : State) : Int := compT s.rawT s.cal.T1 s.cal.T2 s.cal.T3

/-- The denominator of a cycle's pressure phase (R160, R174). -/
def cycleDenominator (s : State) : Int := compDenominator s.cycleFine s.cal.P1 s.cal.P2 s.cal.P3

/-- The pressure result of a cycle (R174). -/
def cycleP (s : State) : Int :=
  compP s.rawP s.cycleFine s.cal.P1 s.cal.P2 s.cal.P3 s.cal.P4 s.cal.P5 s.cal.P6 s.cal.P7 s.cal.P8 s.cal.P9

/-- The humidity result of a cycle (R175). -/
def cycleH (s : State) : Int :=
  compH s.rawH s.cycleFine s.cal.H1 s.cal.H2 s.cal.H3 s.cal.H4 s.cal.H5 s.cal.H6

/-- How many micro-steps the engine runs (R143, R161): E0 to E22, less E11 to E15 on the sentinel path. -/
def cycleMicroSteps (s : State) : Nat := if s.cycleDenominator = 0 then 18 else 23

end State

/-! ### The motor over exact rationals -/

/-- `angle = pos × 360 / RES` degrees (R34, R221). -/
def angleOf (p : Params) (pos : Int) : ℚ := (pos : ℚ) * 360 / (p.res : ℚ)

/-- The step count of ROTATE_BY as R226 defines it: `floor(A' / 360 × RES)` with A' the clamped delta. -/
def rotateByUnitsExact (p : Params) (pos : Int) (cw : Bool) (angle : Nat) : Int :=
  ⌊min (angle : ℚ) (if cw then 180 - angleOf p pos else angleOf p pos + 180) / 360 * (p.res : ℚ)⌋

/-- `delta = tc − pos × 360 / RES` of ROTATE_TO (R230). -/
def rotateToDelta (p : Params) (pos target : Int) : ℚ := (clampTarget target : ℚ) - angleOf p pos

/-- The step count of ROTATE_TO as R230 defines it: `floor(|delta| / 360 × RES)`. -/
def rotateToUnitsExact (p : Params) (pos target : Int) : Int :=
  ⌊|rotateToDelta p pos target| / 360 * (p.res : ℚ)⌋

/-- The position a motor command in progress is moving to (R231, R236): `pos` with the units still to drive. -/
def State.destination (s : State) : Int :=
  match s.dir with
  | .forward => s.position + s.unitsLeft.toNat
  | .backward => s.position - s.unitsLeft.toNat

end Sys2Proof.Machine
end

