-- ==== Sys2Proof/Machine/Text.lean ====
section
/-! DEFINITION. Machine/Text.lean: the written command form (R108) and the text front-end (R109 to R113): software
outside the block, specified by the command word each payload produces (log 15). -/

namespace Sys2Proof.Machine

/-! ### Written form (R108, R112) -/

/-- `cw` or `ccw`. -/
def writtenDirection (cw : Bool) : String := if cw then "cw" else "ccw"

/-- The written form of a command (R108, R112); a micro-step is written by its name (R103). -/
def written : Instr → String
  | .loadCal => "LOAD_CAL"
  | .measure => "MEASURE"
  | .rotateBy cw angle delay => "ROTATE_BY " ++ writtenDirection cw ++ ", " ++ toString angle ++ ", " ++ toString delay
  | .rotateTo target delay => "ROTATE_TO " ++ toString target ++ ", " ++ toString delay
  | .nudgeCw delay => "NUDGE_CW " ++ toString delay
  | .nudgeCcw delay => "NUDGE_CCW " ++ toString delay
  | .e0 => "E0" | .e1 => "E1" | .e2 => "E2" | .e3 => "E3" | .e4 => "E4" | .e5 => "E5"
  | .e6 => "E6" | .e7 => "E7" | .e8 => "E8" | .e9 => "E9" | .e10 => "E10" | .e11 => "E11"
  | .e12 => "E12" | .e13 => "E13" | .e14 => "E14" | .e15 => "E15" | .e16 => "E16" | .e17 => "E17"
  | .e18 => "E18" | .e19 => "E19" | .e20 => "E20" | .e21 => "E21" | .e22 => "E22"

/-! ### The text protocol -/

/-- A payload that produces no command word (R113). -/
inductive TextError where
  /-- InputError (R260): reported and ignored -/
  | inputError
  deriving DecidableEq, Repr

/-- ASCII case folding: A to Z become a to z (R109). -/
def foldCase (c : Char) : Char :=
  if 65 ≤ c.toNat ∧ c.toNat ≤ 90 then Char.ofNat (c.toNat + 32) else c

/-- ASCII white space (R111): space, tab, line feed, vertical tab, form feed, carriage return. DESIGN CHOICE which
characters those are (log 15). -/
def isSpace (c : Char) : Bool := c.toNat == 32 || (9 ≤ c.toNat && c.toNat ≤ 13)

/-- An ASCII decimal digit. -/
def isDigit (c : Char) : Bool := 48 ≤ c.toNat && c.toNat ≤ 57

/-- The payload without leading and trailing white space (R111). -/
def trim (cs : List Char) : List Char := ((cs.dropWhile isSpace).reverse.dropWhile isSpace).reverse

/-- The value of one or more decimal digits and nothing else (R111). -/
def digitsValue (cs : List Char) : Option Nat :=
  if cs.isEmpty then none
  else if cs.all isDigit then some (cs.foldl (fun n c => n * 10 + (c.toNat - 48)) 0)
  else none

/-- A signed decimal integer (R111): optional white space around, an optional sign, digits. -/
def payloadInteger (cs : List Char) : Option Int :=
  match trim cs with
  | '+' :: rest => (digitsValue rest).map fun n => (n : Int)
  | '-' :: rest => (digitsValue rest).map fun n => -(n : Int)
  | rest => (digitsValue rest).map fun n => (n : Int)

/-- The literal `clockwise`. -/
def clockwiseText : List Char := ['c', 'l', 'o', 'c', 'k', 'w', 'i', 's', 'e']

/-- The literal `counterclockwise`. -/
def counterclockwiseText : List Char := ['c', 'o', 'u', 'n', 't', 'e', 'r'] ++ clockwiseText

/-- `n' = clamp(n, −32768, 32767)` (R111). -/
def saturate16 (n : Int) : Int := max (-32768) (min n 32767)

/-- The command a payload produces, `delay` being `TEXT_STEP_DELAY_US` (R110, R111), or InputError (R113). -/
def payloadCommand (delay : Nat) (payload : List Char) : Except TextError Instr :=
  if payload.map foldCase = clockwiseText then .ok (.rotateBy true 1 delay)
  else if payload.map foldCase = counterclockwiseText then .ok (.rotateBy false 1 delay)
  else match payloadInteger payload with
    | some n => .ok (.rotateTo (saturate16 n) delay)
    | none => .error .inputError

/-- The code a payload produces, if any. -/
def payloadCode (delay : Nat) (payload : List Char) : Except TextError Code :=
  (payloadCommand delay payload).map encode

end Sys2Proof.Machine
end

