-- ==== Sys2Proof/Safety.lean ====
section
/-! DEFINITION. Safety.lean: the terms in which claims are stated: a safe step, the invariant that rules out the states
no run reaches, and the ranges of the engine's values (R147). -/

namespace Sys2Proof

open Machine

/-- The step answers a next state: no fault, no refusal. -/
def SafeStep (s : State) : Prop := ∃ s', step s = .next s'

/-- `n` steps from `s` end in `t` without a stop. -/
def RunsTo (n : Nat) (s t : State) : Prop := Host.Core.run Sys2Proof.core n s = .next t

/-- A motor command is in progress. -/
abbrev Machine.State.motorRunning (s : State) : Prop :=
  s.busy = true ∧ (s.curOp = .rotateBy ∨ s.curOp = .rotateTo)

/-- What holds of a block in every state a run reaches: the relations between the sequencing registers of R30, the
motor's range (R34), and the flags (R35). -/
structure Machine.State.Inv (s : State) : Prop where
  /-- the parameters are legal (R9) -/
  params_legal : s.params.wf
  /-- −HALF ≤ pos ≤ HALF (R34) -/
  pos_in_range : -halfTurn s.params ≤ s.position ∧ s.position ≤ halfTurn s.params
  /-- the end of a motor command in progress lies in the range as well (R236) -/
  destination_in_range : -halfTurn s.params ≤ s.destination ∧ s.destination ≤ halfTurn s.params
  /-- `eng_step` never exceeds 22 (R32, R103) -/
  eng_step_numbered : s.engStep.toNat ≤ 22
  /-- an idle block has nothing under way (R47, R191, R291) -/
  idle_at_rest : s.busy = false →
    s.mstate = .idle ∧ s.flight = none ∧ s.waiting = false ∧ s.engPhase = .off
  /-- `mstate` ≠ Idle only inside a MEASURE command (R191) -/
  mstate_only_in_measure : s.mstate ≠ .idle → s.busy = true ∧ s.curOp = .measure
  /-- `cal_idx` leaves 0 only inside a LOAD_CAL command (R125, R126) -/
  cal_idx_only_in_load : s.calIdx ≠ 0 → s.busy = true ∧ s.curOp = .loadCal
  /-- `rd_idx` leaves 0 only while the raw groups are read (R199 to R201) -/
  rd_idx_only_in_ready : s.rdIdx ≠ .pressure → s.mstate = .ready ∧ s.engPhase = .off
  /-- the engine runs only in Ready, with no transaction and no wait (R144, R203) -/
  engine_only_in_ready : s.engPhase ≠ .off →
    s.mstate = .ready ∧ s.flight = none ∧ s.waiting = false
  /-- the engine starts at E0 (R203) -/
  eng_step_rests_at_zero : s.engPhase ≠ .running → s.engStep = 0
  /-- E11 never divides by zero (R161, R162) -/
  divisor_nonzero : s.engPhase = .running → s.engStep = 11 → s.v1 ≠ 0
  /-- MEASURE runs only with a loaded calibration (R192) -/
  measure_after_load : s.busy = true → s.curOp = .measure → s.calValid = true
  /-- LOAD_CAL runs only without one (R121) -/
  load_once : s.busy = true → s.curOp = .loadCal → s.calValid = false
  /-- a result needs a loaded calibration (R22) -/
  result_after_load : s.resValid = true → s.calValid = true
  /-- `dly_cnt` is 0 outside a wait (R280) -/
  no_count_outside_wait : s.waiting = false → s.dlyCnt = 0
  /-- a wait belongs to the poll loop or to an activation (R196, R235), and no transaction is in flight -/
  wait_has_owner : s.waiting = true →
    s.busy = true ∧ s.flight = none ∧
      ((s.curOp = .measure ∧ s.mstate = .polling) ∨
        (s.motorRunning ∧ s.unitsLeft ≠ 0 ∧ s.entLeft ≠ 0))
  /-- the transaction in flight is the one the sequence has come to (R60, R77) -/
  flight_is_due : ∀ t, s.flight = some t → s.busy = true ∧ nextRequest s = some t
  /-- units and entries are left only inside a motor command (R234) -/
  units_only_in_motor : s.unitsLeft ≠ 0 ∨ s.entLeft ≠ 0 → s.motorRunning
  /-- entries are left only while units are (R234) -/
  entries_of_a_unit : s.entLeft ≠ 0 → s.unitsLeft ≠ 0
  /-- a unit has at most EPU entries (R234) -/
  entries_at_most_epu : s.entLeft.toNat ≤ s.params.epu
  /-- `done` is the pulse of a command that is no longer in progress (R266, R271) -/
  done_when_idle : s.done = true → s.busy = false

/-- A block that takes commands: not busy, and nothing left over from an earlier command. -/
structure Machine.State.Ready (s : State) : Prop where
  inv : s.Inv
  idle : s.busy = false

/-! ### The ranges of the engine's values (R147) -/

/-- `lo ≤ v ≤ hi`. -/
def within (lo hi v : Int) : Prop := lo ≤ v ∧ v ≤ hi

/-- The two's complement range of `bits` bits. -/
def fitsBits (bits : Nat) (v : Int) : Prop := -(2 ^ (bits - 1)) ≤ v ∧ v < 2 ^ (bits - 1)

/-- The range of `t_fine` (R26, R147). -/
def fineRange (v : Int) : Prop := within (-4194224) 4194144 v

/-- What holds of `t_fine` and `t_w` from the end of the temperature phase on (R147). -/
def temperatureRange (s : State) : Prop := fineRange s.fine ∧ within (-81918) 81917 s.tW.toInt

/-- The ranges of the values the engine still needs before micro-step `k` (R147). Where R147's table gives a power of
two, the bound here is the end of the same interval analysis, inside R147's: a chain of steps needs it. `p_w` is live from E10 on; R147 has no row for it, it is any
32-bit value (R166). -/
def engineRange (k : Nat) (s : State) : Prop :=
  match k with
  | 0 => True
  | 1 => within (-2097136) 2097120 s.v1
  | 2 => within (-2097136) 2097120 s.v1 ∧ within (-2097088) 2097024 s.v2
  | 3 => fineRange s.fine
  | 4 => temperatureRange s
  | 5 => temperatureRange s ∧ within (-4322224) 4066144 s.v1
  | 6 => temperatureRange s ∧ within (-4322224) 4066144 s.v1
      ∧ within (-612159334192775168) 612140652572468992 s.v2
  | 7 => temperatureRange s ∧ within (-4322224) 4066144 s.v1
      ∧ within (-630722578396217344) 630704463298455296 s.v2
  | 8 => temperatureRange s ∧ within (-4322224) 4066144 s.v1
      ∧ within (-631848478303059968) 631830328845559552 s.v2
  | 9 => temperatureRange s ∧ within (-2971348780548096) 2971293509298279 s.v1
      ∧ within (-631848478303059968) 631830328845559552 s.v2
  | 10 => temperatureRange s ∧ within (-21595520787) 23742549986 s.v1
      ∧ within (-631848478303059968) 631830328845559552 s.v2
  | 11 => temperatureRange s ∧ within (-21595520787) 23742549986 s.v1 ∧ s.v1 ≠ 0
      ∧ within (-631848478303059968) 631830328845559552 s.v2 ∧ within 1 1048576 s.acc
  | 12 => temperatureRange s ∧ within (-1981563369114828800000) 1981563369114828800000 s.acc
  | 13 => temperatureRange s ∧ within (-1981563369114828800000) 1981563369114828800000 s.acc
      ∧ within (-57139454086685309427930625000000) 57137710328931199158477868328094 s.v1
  | 14 => temperatureRange s ∧ within (-1981563369114828800000) 1981563369114828800000 s.acc
      ∧ within (-57139454086685309427930625000000) 57137710328931199158477868328094 s.v1
      ∧ within (-123847710569676800000) 123847710569676800000 s.v2
  | 15 => temperatureRange s
      ∧ within (-223200992534338751982872128195) 223194180980611758742822297428 s.acc
  | 16 => temperatureRange s
  | 17 => temperatureRange s ∧ within (-4271024) 4117344 s.acc
  | 18 => temperatureRange s ∧ within (-209181999983616) 209175616365408 s.acc
  | 19 => temperatureRange s ∧ -(2 ^ 63) < s.acc ∧ s.acc < 2 ^ 48
  | 20 => temperatureRange s ∧ 0 ≤ s.acc ∧ s.acc < 2 ^ 48
  | 21 => temperatureRange s ∧ within 0 419430400 s.acc
  | 22 => temperatureRange s ∧ s.hW.toNat ≤ 102400
  | _ => True

/-- While the engine runs, its live values are in the ranges of R147 for the micro-step it has come to. -/
def EngineInRange (s : State) : Prop := s.engPhase = .running → engineRange s.engStep.toNat s

/-- The values each micro-step forms: the result of every operation of its rule, in the order of the rule's expression,
the one it writes included (the rows of R147 "before" a shift among them). -/
def intermediates (s : State) : List Int :=
  match s.engStep.toNat with
  | 0 =>
    let d := asr s.rawT 3 - shl s.cal.T1 1
    [asr s.rawT 3, shl s.cal.T1 1, d, d * s.cal.T2, asr (d * s.cal.T2) 11]
  | 1 =>
    let d := asr s.rawT 4 - s.cal.T1
    [asr s.rawT 4, d, d * d, asr (d * d) 12, asr (d * d) 12 * s.cal.T3, asr (asr (d * d) 12 * s.cal.T3) 14]
  | 2 => [s.v1 + s.v2]
  | 3 => [s.fine * 5, s.fine * 5 + 128, asr (s.fine * 5 + 128) 8]
  | 4 => [s.fine - 128000]
  | 5 => [s.v1 * s.v1, s.v1 * s.v1 * s.cal.P6]
  | 6 => [s.v1 * s.cal.P5, shl (s.v1 * s.cal.P5) 17, s.v2 + shl (s.v1 * s.cal.P5) 17]
  | 7 => [shl s.cal.P4 35, s.v2 + shl s.cal.P4 35]
  | 8 => [s.v1 * s.v1, s.v1 * s.v1 * s.cal.P3, asr (s.v1 * s.v1 * s.cal.P3) 8, s.v1 * s.cal.P2,
      shl (s.v1 * s.cal.P2) 12, asr (s.v1 * s.v1 * s.cal.P3) 8 + shl (s.v1 * s.cal.P2) 12]
  | 9 => [shl 1 47, shl 1 47 + s.v1, (shl 1 47 + s.v1) * s.cal.P1, asr ((shl 1 47 + s.v1) * s.cal.P1) 33]
  | 10 => [1048576 - s.rawP]
  | 11 =>
    let n := (shl s.acc 31 - s.v2) * 3125
    [shl s.acc 31, shl s.acc 31 - s.v2, n, tdiv n s.v1]
  | 12 =>
    let e := asr s.acc 13
    [e, e * e, s.cal.P9 * e, s.cal.P9 * e * e, asr (s.cal.P9 * e * e) 25]
  | 13 => [s.cal.P8 * s.acc, asr (s.cal.P8 * s.acc) 19]
  | 14 => [s.acc + s.v1, s.acc + s.v1 + s.v2, asr (s.acc + s.v1 + s.v2) 8, shl s.cal.P7 4,
      asr (s.acc + s.v1 + s.v2) 8 + shl s.cal.P7 4]
  | 15 => [s.acc, s.acc % 2 ^ 32]
  | 16 => [s.fine - 76800]
  | 17 =>
    let h := s.acc
    let a := (shl s.rawH 14 - shl s.cal.H4 20 - s.cal.H5 * h) + 16384
    let b1 := asr (h * s.cal.H6) 10
    let b2 := asr (h * s.cal.H3) 11 + 32768
    let b := (asr (b1 * b2) 10 + 2097152) * s.cal.H2 + 8192
    [shl s.rawH 14, shl s.cal.H4 20, shl s.rawH 14 - shl s.cal.H4 20, s.cal.H5 * h,
      shl s.rawH 14 - shl s.cal.H4 20 - s.cal.H5 * h, a, asr a 15,
      h * s.cal.H6, b1, h * s.cal.H3, asr (h * s.cal.H3) 11, b2, b1 * b2, asr (b1 * b2) 10,
      asr (b1 * b2) 10 + 2097152, (asr (b1 * b2) 10 + 2097152) * s.cal.H2, b, asr b 14, asr a 15 * asr b 14]
  | 18 =>
    let e := asr s.acc 15
    let f := asr (e * e) 7 * s.cal.H1
    [e, e * e, asr (e * e) 7, f, asr f 4, s.acc - asr f 4]
  | 19 => [s.acc, max 0 s.acc]
  | 20 => [s.acc, min s.acc 419430400]
  | 21 => [s.acc, asr s.acc 12]
  | _ => []

/-! ### Scripts of inputs: what the environment does at the edges of one command -/

/-- A transaction: the edge that issues it, `stalls` edges without an answer, then a success with `rdata` (R60). -/
def answerAfter (stalls : Nat) (rdata : BitVec 24) : List PortIn :=
  List.replicate (stalls + 1) .quiet ++ [.answer rdata]

/-- A wait of `n` microseconds: `n` ticks, and the edge that ends it (R280). -/
def waitOut (n : Nat) : List PortIn := List.replicate n .tick ++ [.quiet]

/-- The 17 reads of LOAD_CAL (R122), each answered after some stalls. -/
def loadInputs (answers : Fin 17 → Nat × BitVec 24) : List PortIn :=
  (List.ofFn answers).flatMap fun a => answerAfter a.1 a.2

/-- Status reads with bit 3 set, each followed by the wait of `interval` microseconds (R196). -/
def pollInputs (interval : Nat) (polls : List (Nat × BitVec 24)) : List PortIn :=
  polls.flatMap fun a => answerAfter a.1 a.2 ++ waitOut interval

/-- The answers of one MEASURE cycle: to the trigger write, to the status reads that show "measuring", to the last
status read, and to the raw reads (R190). -/
structure CycleAnswers where
  trigger : Nat × BitVec 24
  polls : List (Nat × BitVec 24)
  last : Nat × BitVec 24
  pressure : Nat × BitVec 24
  temperature : Nat × BitVec 24
  humidity : Nat × BitVec 24

/-- Every status read of `polls` has bit 3 set, the last has it clear (R196). -/
def CycleAnswers.pollsEnd (a : CycleAnswers) : Prop :=
  (∀ p ∈ a.polls, measuring p.2 = true) ∧ measuring a.last.2 = false

/-- The state with the raw values of a cycle (R199 to R201). -/
def CycleAnswers.raw (a : CycleAnswers) (s : State) : State :=
  { s with adcP := be20 a.pressure.2, adcT := be20 a.temperature.2, adcH := be16 a.humidity.2 }

/-- The inputs of one whole MEASURE cycle after its command word (R190): the trigger, the edge from Triggered to
Polling, the polls, the raw reads, the micro-steps and the completion. -/
def CycleAnswers.inputs (a : CycleAnswers) (s : State) : List PortIn :=
  answerAfter a.trigger.1 a.trigger.2 ++ [.quiet]
    ++ pollInputs s.params.pollIntervalUs.toNat a.polls
    ++ answerAfter a.last.1 a.last.2
    ++ answerAfter a.pressure.1 a.pressure.2
    ++ answerAfter a.temperature.1 a.temperature.2
    ++ answerAfter a.humidity.1 a.humidity.2
    ++ List.replicate ((a.raw s).cycleMicroSteps + 1) .quiet

/-- One unit of a motor command (R234): `entries` activations, each followed by its wait of `delay` microseconds, and
the edge that moves `pos`. -/
def unitInputs (entries delay : Nat) : List PortIn :=
  (List.replicate entries (PortIn.quiet :: waitOut delay)).flatten ++ [.quiet]

/-- A whole motor command of `units` units after its command word: the units, and the edge of the completion. -/
def motorInputs (units entries delay : Nat) : List PortIn :=
  (List.replicate units (unitInputs entries delay)).flatten ++ [.quiet]

/-- The state a motor command of `units` units leaves (R235, R236): `pos` moved by the units, the last pattern still on
the coils. -/
def motorFinal (s : State) (op : Op) (d : Dir) (units delay : Nat) (rest : List PortIn) : State :=
  let last := entryIndex d (s.params.epu - 1)
  { s with
    curOp := op
    dir := d
    stepDelay := BitVec.ofNat 32 delay
    pos := match d with
      | .forward => s.pos + BitVec.ofNat 16 units
      | .backward => s.pos - BitVec.ofNat 16 units
    coil := if units = 0 then s.coil else coilRow s.params last
    seqIdx := if units = 0 then s.seqIdx else last
    err := .ok
    done := true
    inputs := rest }

end Sys2Proof
end

