-- ==== Sys2Proof/Certificates/Slice0/Obligations.lean ====
section
/-! DEFINITION. Obligations.lean: the statements about UNIPD CORE, each formalising the rules its docstring cites. -/

open Sys2Proof Sys2Proof.Machine

/-! ### Encoding -/

/-- The words and examples of R95 to R98 and the micro-step numbers at the ends of each phase (R103). The one-degree example
stands under its pseudo-command's name, which is the model's choice (log 8). -/
def Obligations.SpecWordsDecodeToTheirInstructions : Prop :=
  decode (.command 0x0100000000000000) = .ok .loadCal ∧
  decode (.command 0x0200000000000000) = .ok .measure ∧
  decode (.command 0x10010001000003E8) = .ok (.nudgeCw 1000) ∧
  decode (.command 0x1000005A000007D0) = .ok (.rotateBy false 90 2000) ∧
  decode (.command 0x1100FFA6000007D0) = .ok (.rotateTo (-90) 2000) ∧
  decode (.command 0x110000B4000003E8) = .ok (.rotateTo 180 1000) ∧
  decode (.microStep 0) = .ok .e0 ∧ decode (.microStep 3) = .ok .e3 ∧
  decode (.microStep 4) = .ok .e4 ∧ decode (.microStep 15) = .ok .e15 ∧
  decode (.microStep 16) = .ok .e16 ∧ decode (.microStep 21) = .ok .e21 ∧ decode (.microStep 22) = .ok .e22 ∧
  decode (.microStep 23) = .error .noSuchMicroStep

/-- Decoding the encoding of any well-formed instruction gives it back, a one-degree ROTATE_BY under its
pseudo-command's name (R112; the choice of that name is the model's, log 8), and that name means the same. -/
def Obligations.DecodeInvertsEncode : Prop :=
  ∀ i : Instr, WellFormed i →
    decode (encode i) = .ok i.canonical ∧
    (i.canonical = i ∨ ∃ cw delay, i = .rotateBy cw 1 delay ∧
      i.canonical = if cw then .nudgeCw delay else .nudgeCcw delay) ∧
    ∀ s, exec i.canonical s = exec i s

/-- Every code that decodes has one meaning: the instruction is well-formed and encodes to that very code. -/
def Obligations.EncodeInvertsDecode : Prop :=
  ∀ (c : Code) (i : Instr), decode c = .ok i → WellFormed i ∧ encode i = c

/-- R100: exactly the words it names are illegal, and an illegal word taken by an idle block is refused with
ILLEGAL_CMD: `err <- 2`, `done` pulses, nothing else changes (R266); the legal words are exactly those that match one
of the four non-pseudo rows of the opcode map (R94). -/
def Obligations.IllegalWordsAreRefused : Prop :=
  (∀ w : CommandWord,
    (∃ e, decode (.command w) = .error e) ↔
      (w.extractLsb' 56 8 ≠ 0x01 ∧ w.extractLsb' 56 8 ≠ 0x02 ∧ w.extractLsb' 56 8 ≠ 0x10 ∧ w.extractLsb' 56 8 ≠ 0x11) ∨
      w.extractLsb' 49 7 ≠ 0 ∨
      ((w.extractLsb' 56 8 = 0x01 ∨ w.extractLsb' 56 8 = 0x02) ∧ w.extractLsb' 0 49 ≠ 0) ∨
      (w.extractLsb' 56 8 = 0x11 ∧ w.getLsbD 48 = true)) ∧
  (∀ (s : State) (e : DecodeError), s.busy = false → s.input.rst = false → s.input.cmdValid = true →
    decode (.command s.input.cmd) = .error e →
      step s = .next { s.clockEdge with err := .illegalCmd, done := true }) ∧
  CompletionCode.illegalCmd.bits = 2 ∧
  (∀ w : CommandWord, (∃ i, decode (.command w) = .ok i) ↔ ∃ r ∈ commandRows, r.selects (.command w) = true)

/-- R93, R97, R98: where ROTATE_BY and ROTATE_TO carry their operands, at every value. -/
def Obligations.RotateWordsCarryTheirOperands : Prop :=
  (∀ (cw : Bool) (A : BitVec 16) (D : BitVec 32),
    decode (.command ((0x10 : BitVec 8) ++ (0 : BitVec 7) ++ BitVec.ofBool cw ++ A ++ D)) =
      .ok (rotateByOf cw A.toNat D.toNat)) ∧
  (∀ (TGT : BitVec 16) (D : BitVec 32),
    decode (.command ((0x11 : BitVec 8) ++ (0 : BitVec 7) ++ (0 : BitVec 1) ++ TGT ++ D)) =
      .ok (.rotateTo TGT.toInt D.toNat))

/-- R112: the nudges' words are `0x1001000100000000 OR D` and `0x1000000100000000 OR D`, and each means what ROTATE_BY
by one degree means. -/
def Obligations.NudgesAreOneDegreeRotations : Prop :=
  (∀ D : BitVec 32,
    encode (.nudgeCw D.toNat) = .command (0x1001000100000000 ||| D.setWidth 64) ∧
    encode (.nudgeCcw D.toNat) = .command (0x1000000100000000 ||| D.setWidth 64) ∧
    encode (.nudgeCw D.toNat) = encode (.rotateBy true 1 D.toNat) ∧
    encode (.nudgeCcw D.toNat) = encode (.rotateBy false 1 D.toNat)) ∧
  (∀ (delay : Nat) (s : State),
    exec (.nudgeCw delay) s = exec (.rotateBy true 1 delay) s ∧
    exec (.nudgeCcw delay) s = exec (.rotateBy false 1 delay) s)

/-- R110, R111, R113: the command each payload of the text protocol produces: the two literals in any case, a signed
decimal integer with white space around it, saturated to 16 bits (which changes nothing, because ROTATE_TO clamps first), and nothing for any other payload. -/
def Obligations.TextPayloadsProduceTheirCommands : Prop :=
  (∀ (delay : Nat) (p : List Char), p.map foldCase = "clockwise".toList →
    payloadCommand delay p = .ok (.rotateBy true 1 delay)) ∧
  (∀ (delay : Nat) (p : List Char), p.map foldCase = "counterclockwise".toList →
    payloadCommand delay p = .ok (.rotateBy false 1 delay)) ∧
  (∀ (delay : Nat) (lead trail digits : List Char), lead.all isSpace = true → trail.all isSpace = true →
    digits ≠ [] → digits.all isDigit = true →
    let n : Int := (digits.foldl (fun n c => n * 10 + (c.toNat - 48)) 0 : Nat)
    payloadCommand delay (lead ++ digits ++ trail) = .ok (.rotateTo (max (-32768) (min n 32767)) delay) ∧
    payloadCommand delay (lead ++ ['+'] ++ digits ++ trail) = .ok (.rotateTo (max (-32768) (min n 32767)) delay) ∧
    payloadCommand delay (lead ++ ['-'] ++ digits ++ trail) = .ok (.rotateTo (max (-32768) (min (-n) 32767)) delay)) ∧
  (∀ (delay : Nat) (p : List Char), payloadCommand delay p = .error .inputError ↔
    p.map foldCase ≠ "clockwise".toList ∧ p.map foldCase ≠ "counterclockwise".toList ∧
    ¬ ∃ lead sign digits trail : List Char, p = lead ++ sign ++ digits ++ trail ∧
        lead.all isSpace = true ∧ trail.all isSpace = true ∧ (sign = [] ∨ sign = ['+'] ∨ sign = ['-']) ∧
        digits ≠ [] ∧ digits.all isDigit = true) ∧
  (∀ (n : Int) (D : Nat) (s : State), exec (.rotateTo (saturate16 n) D) s = exec (.rotateTo n D) s)

/-! ### A step runs the decoded instruction -/

/-- An idle block that is offered a legal word runs its instruction (R90, R91), and while the engine runs a step runs the
micro-step that `eng_step` names (R103, R203); either way with the edge's input used up and `done` low. -/
def Obligations.StepRunsTheDecodedInstruction : Prop :=
  ∀ (s : State) (i : Instr), s.input.rst = false →
    (s.busy = false → s.input.cmdValid = true → decode (.command s.input.cmd) = .ok i →
      step s = exec i { s with inputs := s.inputs.tail, done := false }) ∧
    (s.busy = true → s.engPhase = .running → decode (.microStep s.engStep) = .ok i →
      step s = exec i { s with inputs := s.inputs.tail, done := false })

/-- Whatever opcode-table word the decoder accepts, the next step from the state that holds it runs its instruction
(log 13: how an instruction comes to be fetched is the model's reading of R3). -/
def Obligations.FetchWordIsExecutedNext : Prop :=
  ∀ (nbits w : Nat) (i : Instr) (s : State), decodeTableWord nbits w = some i →
    step (s.withFetchWord nbits w) =
      exec i { s.withFetchWord nbits w with inputs := s.inputs, done := false }

/-! ### Commands at the port -/

/-- R121: LOAD_CAL is accepted while `cal_valid` = 0 and refused with CAL_ALREADY_LOADED while it is 1. -/
def Obligations.LoadCalAdmission : Prop :=
  (∀ s : State, s.busy = false → s.calValid = false →
    exec .loadCal s = .next { s with busy := true, curOp := .loadCal, calIdx := 0 }) ∧
  (∀ s : State, s.busy = false → s.calValid = true →
    exec .loadCal s = .next { s with err := .calAlreadyLoaded, done := true })

/-- R192: MEASURE is refused with CAL_NOT_LOADED while `cal_valid` = 0, and otherwise accepted with `mstate` still
Idle. -/
def Obligations.MeasureAdmission : Prop :=
  (∀ s : State, s.busy = false → s.calValid = false →
    exec .measure s = .next { s with err := .calNotLoaded, done := true }) ∧
  (∀ s : State, s.busy = false → s.calValid = true →
    exec .measure s = .next { s with busy := true, curOp := .measure })

/-- R226, R227: ROTATE_BY (and with it the nudges) starts with `S = min((A × RES) div 360, HALF − pos)` units forward, or
`min(…, HALF + pos)` backward, at every operand and every position in range; nothing but the sequencing registers
changes. That the edge of the acceptance loads `ent_left` is the model's choice (log 11). -/
def Obligations.RotateByLatchesTheClampedStepCount : Prop :=
  ∀ (s : State) (cw : Bool) (A D : Nat), s.Ready → A < 2 ^ 16 → D < 2 ^ 32 →
    ∃ t, exec (.rotateBy cw A D) s = .next t ∧
      (A = 1 → exec (if cw then .nudgeCw D else .nudgeCcw D) s = .next t) ∧
      (t.unitsLeft.toNat : Int) =
        min (((A * s.params.res / 360 : Nat)) : Int)
          (if cw then (s.params.res / 2 : Nat) - s.pos.toInt else (s.params.res / 2 : Nat) + s.pos.toInt) ∧
      t = { s with
        busy := true
        curOp := .rotateBy
        dir := if cw then .forward else .backward
        unitsLeft := t.unitsLeft
        entLeft := if t.unitsLeft = 0 then 0 else BitVec.ofNat 4 s.params.epu
        stepDelay := BitVec.ofNat 32 D }

/-- R230, R231: ROTATE_TO goes forward exactly when `tc × RES > pos × 360`, with `S = floor(q) − pos`, else backward with
`S = pos − ceil(q)`, where `q = tc × RES / 360`; nothing but the sequencing registers changes. That the edge of the acceptance
loads `ent_left` is the model's choice (log 11). -/
def Obligations.RotateToLatchesTheStepCount : Prop :=
  ∀ (s : State) (TGT : Int) (D : Nat), s.Ready → -32768 ≤ TGT → TGT ≤ 32767 → D < 2 ^ 32 →
    let tc := max (-180) (min TGT 180)
    let q : ℚ := (tc : ℚ) * (s.params.res : ℚ) / 360
    ∃ t, exec (.rotateTo TGT D) s = .next t ∧
      (tc * s.params.res > s.pos.toInt * 360 →
        t.dir = .forward ∧ (t.unitsLeft.toNat : Int) = ⌊q⌋ - s.pos.toInt) ∧
      (tc * s.params.res ≤ s.pos.toInt * 360 →
        t.dir = .backward ∧ (t.unitsLeft.toNat : Int) = s.pos.toInt - ⌈q⌉) ∧
      t = { s with
        busy := true
        curOp := .rotateTo
        dir := t.dir
        unitsLeft := t.unitsLeft
        entLeft := if t.unitsLeft = 0 then 0 else BitVec.ofNat 4 s.params.epu
        stepDelay := BitVec.ofNat 32 D }

/-- R90, R302: a word offered while busy has no effect: a busy block's step does not depend on the command port. That
`exec` of a command in a busy state, which no step comes to, leaves the state as it is is the model's reading (log 21). -/
def Obligations.BusyBlockIgnoresTheCommandPort : Prop :=
  (∀ (s : State) (inp : PortIn) (rest : List PortIn) (valid : Bool) (w : CommandWord), s.busy = true →
    step { s with inputs := { inp with cmdValid := valid, cmd := w } :: rest } = step { s with inputs := inp :: rest }) ∧
  (∀ (s : State) (i : Instr), s.busy = true → i.isCommand = true → exec i s = .next s)

/-! ### The engine's micro-steps -/

/-- R150 to R153: the temperature phase. R152 and R153 write a 32-bit register without loss (R142); that a value outside its
range, which no cycle forms, keeps its low 32 bits is the model's reading (log 16). -/
def Obligations.TemperatureMicroSteps : Prop :=
  (decode (.microStep 0) = .ok .e0 ∧ ∀ s : State, exec .e0 s = .next { s with
    v1 := (((s.adcT.toNat : Int) / 2 ^ 3 - s.cal.T1 * 2 ^ 1) * s.cal.T2) / 2 ^ 11, engStep := s.engStep + 1 }) ∧
  (decode (.microStep 1) = .ok .e1 ∧ ∀ s : State, exec .e1 s = .next { s with
    v2 := (((s.adcT.toNat : Int) / 2 ^ 4 - s.cal.T1) * ((s.adcT.toNat : Int) / 2 ^ 4 - s.cal.T1) / 2 ^ 12 * s.cal.T3) / 2 ^ 14,
    engStep := s.engStep + 1 }) ∧
  (decode (.microStep 2) = .ok .e2 ∧ ∀ s : State, exec .e2 s = .next { s with
    tFine := BitVec.ofInt 32 (s.v1 + s.v2), engStep := s.engStep + 1 }) ∧
  (decode (.microStep 3) = .ok .e3 ∧ ∀ s : State, exec .e3 s = .next { s with
    tW := BitVec.ofInt 32 ((s.tFine.toInt * 5 + 128) / 2 ^ 8), engStep := s.engStep + 1 })

/-- R155 to R160: the pressure phase up to the denominator. -/
def Obligations.PressureMicroStepsToTheDenominator : Prop :=
  (decode (.microStep 4) = .ok .e4 ∧ ∀ s : State, exec .e4 s = .next { s with
    v1 := s.tFine.toInt - 128000, engStep := s.engStep + 1 }) ∧
  (decode (.microStep 5) = .ok .e5 ∧ ∀ s : State, exec .e5 s = .next { s with
    v2 := s.v1 * s.v1 * s.cal.P6, engStep := s.engStep + 1 }) ∧
  (decode (.microStep 6) = .ok .e6 ∧ ∀ s : State, exec .e6 s = .next { s with
    v2 := s.v2 + (s.v1 * s.cal.P5) * 2 ^ 17, engStep := s.engStep + 1 }) ∧
  (decode (.microStep 7) = .ok .e7 ∧ ∀ s : State, exec .e7 s = .next { s with
    v2 := s.v2 + s.cal.P4 * 2 ^ 35, engStep := s.engStep + 1 }) ∧
  (decode (.microStep 8) = .ok .e8 ∧ ∀ s : State, exec .e8 s = .next { s with
    v1 := (s.v1 * s.v1 * s.cal.P3) / 2 ^ 8 + (s.v1 * s.cal.P2) * 2 ^ 12, engStep := s.engStep + 1 }) ∧
  (decode (.microStep 9) = .ok .e9 ∧ ∀ s : State, exec .e9 s = .next { s with
    v1 := ((2 ^ 47 + s.v1) * s.cal.P1) / 2 ^ 33, engStep := s.engStep + 1 })

/-- R161: the zero-denominator test: the sentinel 0 and the jump to E16, or the start of the division; and for which values
of E9 the test holds: whenever P1 = 0, and exactly when 0 ≤ (2^47 + v1) × P1 < 2^33. -/
def Obligations.ZeroDenominatorSkipsTheDivision : Prop :=
  decode (.microStep 10) = .ok .e10 ∧
  (∀ s : State, s.v1 = 0 → exec .e10 s = .next { s with pW := 0, engStep := 16 }) ∧
  (∀ s : State, s.v1 ≠ 0 → exec .e10 s = .next { s with acc := 1048576 - (s.adcP.toNat : Int), engStep := 11 }) ∧
  (∀ s t : State, exec .e9 s = .next t →
    (t.v1 = 0 ↔ 0 ≤ (2 ^ 47 + s.v1) * s.cal.P1 ∧ (2 ^ 47 + s.v1) * s.cal.P1 < 2 ^ 33) ∧
    (s.cal.P1 = 0 → t.v1 = 0))

/-- R162, R14: the division truncates toward zero: sign(n)·sign(d)·floor(|n|/|d|), with n and d as the rule forms them. -/
def Obligations.DivisionTruncatesTowardZero : Prop :=
  decode (.microStep 11) = .ok .e11 ∧
  (∀ s : State, s.v1 ≠ 0 → exec .e11 s = .next { s with
    acc := ((s.acc * 2 ^ 31 - s.v2) * 3125).sign * s.v1.sign *
      (((s.acc * 2 ^ 31 - s.v2) * 3125).natAbs / s.v1.natAbs : Nat),
    engStep := s.engStep + 1 })

/-- The model's choice (log 7): with a zero divisor, which R161 keeps out of every cycle and to which R162 gives no result,
E11 still completes and only the quotient is open; nothing is claimed of it. -/
def Obligations.ZeroDivisorLeavesOnlyTheQuotientOpen : Prop :=
  ∀ s : State, s.v1 = 0 → ∃ q : Int, exec .e11 s = .next { s with acc := q, engStep := s.engStep + 1 }

/-- R163 to R166: the rest of the pressure phase. -/
def Obligations.PressureMicroStepsAfterTheDivision : Prop :=
  (decode (.microStep 12) = .ok .e12 ∧ ∀ s : State, exec .e12 s = .next { s with
    v1 := (s.cal.P9 * (s.acc / 2 ^ 13) * (s.acc / 2 ^ 13)) / 2 ^ 25, engStep := s.engStep + 1 }) ∧
  (decode (.microStep 13) = .ok .e13 ∧ ∀ s : State, exec .e13 s = .next { s with
    v2 := (s.cal.P8 * s.acc) / 2 ^ 19, engStep := s.engStep + 1 }) ∧
  (decode (.microStep 14) = .ok .e14 ∧ ∀ s : State, exec .e14 s = .next { s with
    acc := (s.acc + s.v1 + s.v2) / 2 ^ 8 + s.cal.P7 * 2 ^ 4, engStep := s.engStep + 1 }) ∧
  (decode (.microStep 15) = .ok .e15 ∧ ∀ s : State, ∃ p : BitVec 32, (p.toNat : Int) = s.acc % 2 ^ 32 ∧
    exec .e15 s = .next { s with pW := p, engStep := s.engStep + 1 })

/-- R167 to R172: the humidity phase with its clamps. That E21 keeps the low 32 bits of a value outside the range of `h_w`,
which no cycle forms, is the model's reading (log 16). -/
def Obligations.HumidityMicroSteps : Prop :=
  (decode (.microStep 16) = .ok .e16 ∧ ∀ s : State, exec .e16 s = .next { s with
    acc := s.tFine.toInt - 76800, engStep := s.engStep + 1 }) ∧
  (decode (.microStep 17) = .ok .e17 ∧ ∀ s : State,
    let a := (((s.adcH.toNat : Int) * 2 ^ 14 - s.cal.H4 * 2 ^ 20 - s.cal.H5 * s.acc) + 16384) / 2 ^ 15
    let b1 := (s.acc * s.cal.H6) / 2 ^ 10
    let b2 := (s.acc * s.cal.H3) / 2 ^ 11 + 32768
    let b := (((b1 * b2) / 2 ^ 10 + 2097152) * s.cal.H2 + 8192) / 2 ^ 14
    exec .e17 s = .next { s with acc := a * b, engStep := s.engStep + 1 }) ∧
  (decode (.microStep 18) = .ok .e18 ∧ ∀ s : State, exec .e18 s = .next { s with
    acc := s.acc - (((s.acc / 2 ^ 15) * (s.acc / 2 ^ 15) / 2 ^ 7) * s.cal.H1) / 2 ^ 4, engStep := s.engStep + 1 }) ∧
  (decode (.microStep 19) = .ok .e19 ∧ ∀ s : State, exec .e19 s = .next { s with
    acc := max 0 s.acc, engStep := s.engStep + 1 }) ∧
  (decode (.microStep 20) = .ok .e20 ∧ ∀ s : State, exec .e20 s = .next { s with
    acc := min s.acc 419430400, engStep := s.engStep + 1 }) ∧
  (decode (.microStep 21) = .ok .e21 ∧ ∀ s : State, exec .e21 s = .next { s with
    hW := BitVec.ofInt 32 (s.acc / 2 ^ 12), engStep := s.engStep + 1 })

/-- R173, R204: the commit: the three results change together, in one step, and `res_valid` is set; at the next edge MEASURE
completes with OK and the triple stays. (That the completion is an edge of its own is the model's choice, log 10.) -/
def Obligations.CommitWritesTheTripleTogether : Prop :=
  decode (.microStep 22) = .ok .e22 ∧
  ∀ s : State, exec .e22 s = .next { s with
    tRes := s.tW, pRes := s.pW, hRes := s.hW, resValid := true, engStep := 0, engPhase := .done } ∧
  ∀ t : State, exec .e22 s = .next t → t.busy = true → t.input.rst = false →
    ∃ u, step t = .next u ∧ u.mstate = .idle ∧ u.busy = false ∧ u.err = .ok ∧ u.done = true ∧ u.waiting = false ∧
      u.tRes = s.tW ∧ u.pRes = s.pW ∧ u.hRes = s.hW ∧ u.resValid = true

/-! ### The engine as a whole -/

/-- R154, R174, R175, R143: from E0 the engine runs its 23 micro-steps (18 on the sentinel path) and commits exactly the
closed forms CompT, CompP and CompH of the raw values and the calibration; every register outside the engine is as
before. One edge for each micro-step (log 1) and the engine done but MEASURE not yet complete (log 10) are the model's
choices. -/
def Obligations.EngineComputesTheClosedForms : Prop :=
  ∀ s : State, s.busy = true → s.engPhase = .running → s.engStep = 0 →
    (∀ k < s.cycleMicroSteps, (s.inputs.getD k .quiet).rst = false) →
    ∃ t, RunsTo s.cycleMicroSteps s t ∧
      t.tFine.toInt = s.cycleFine ∧ t.tRes.toInt = s.cycleT ∧
      (t.pRes.toNat : Int) = s.cycleP ∧ (t.hRes.toNat : Int) = s.cycleH ∧
      t.resValid = true ∧ t.engStep = 0 ∧ t.engPhase = .done ∧
      t = { s with
        tFine := t.tFine, tRes := t.tRes, pRes := t.pRes, hRes := t.hRes, resValid := true
        v1 := t.v1, v2 := t.v2, acc := t.acc, tW := t.tW, pW := t.pW, hW := t.hW
        engPhase := .done, done := false, inputs := s.inputs.drop s.cycleMicroSteps }

/-- R147: from every state with the live values of the engine in their ranges (`t_fine`, `t_w`, `v1`, `v2`, `acc` and `h_w`,
each from the micro-step that writes it to the last one that reads it), a step leaves them in the ranges of the micro-step it
has come to. -/
def Obligations.EngineValuesStayInRange : Prop :=
  ∀ s s' : State, EngineInRange s → step s = .next s' → EngineInRange s'

/-- R147: in those ranges the result of every operation of every micro-step fits 132 bits, so that the `W_ACC` = 136 bit two's complement
datapath and the exact integers give the same results. -/
def Obligations.EngineFitsTheAccumulatorWidth : Prop :=
  ∀ s : State, engineRange s.engStep.toNat s → ∀ v ∈ intermediates s, fitsBits 132 v ∧ fitsBits Config.wAcc v

/-- R26: the engine's `t_fine` is in [−4194224, 4194144] for every raw value and every calibration. -/
def Obligations.FineTemperatureRange : Prop :=
  ∀ s : State, -4194224 ≤ s.cycleFine ∧ s.cycleFine ≤ 4194144

/-- R176(a), R171, R172: the humidity value is in [0, 419430400] before the final shift and in [0, 102400] after it, for
every raw value, every `t_fine` and every calibration, and the clamp keeps what is inside the range. -/
def Obligations.HumidityIsClamped : Prop :=
  ∀ adcH tf H1 H2 H3 H4 H5 H6 : Int,
    let h3 := compHUnclamped adcH tf H1 H2 H3 H4 H5 H6
    0 ≤ clamp h3 0 419430400 ∧ clamp h3 0 419430400 ≤ 419430400 ∧
    0 ≤ compH adcH tf H1 H2 H3 H4 H5 H6 ∧ compH adcH tf H1 H2 H3 H4 H5 H6 ≤ 102400 ∧
    (h3 < 0 → compH adcH tf H1 H2 H3 H4 H5 H6 = 0) ∧
    (419430400 < h3 → compH adcH tf H1 H2 H3 H4 H5 H6 = 102400) ∧
    (0 ≤ h3 → h3 ≤ 419430400 → compH adcH tf H1 H2 H3 H4 H5 H6 = h3 / 2 ^ 12)

/-- R161, R176(b): the pressure denominator is zero exactly when 0 ≤ (2^47 + v1) × P1 < 2^33, in particular whenever
P1 = 0, and the pressure result is then 0. -/
def Obligations.PressureSentinel : Prop :=
  ∀ adcP tf P1 P2 P3 P4 P5 P6 P7 P8 P9 : Int,
    let a := tf - 128000
    let c := (a * a * P3) / 2 ^ 8 + (a * P2) * 2 ^ 12
    (compDenominator tf P1 P2 P3 = 0 ↔ 0 ≤ (2 ^ 47 + c) * P1 ∧ (2 ^ 47 + c) * P1 < 2 ^ 33) ∧
    (P1 = 0 → compDenominator tf P1 P2 P3 = 0) ∧
    (compDenominator tf P1 P2 P3 = 0 → compP adcP tf P1 P2 P3 P4 P5 P6 P7 P8 P9 = 0)

/-! ### Bus bytes and transactions -/

/-- R67, R68, R69: the decode functions, as numbers, at every value of the bytes. -/
def Obligations.BusBytesDecode : Prop :=
  ∀ r : BitVec 24,
    let b0 := (r.extractLsb' 0 8).toNat
    let b1 := (r.extractLsb' 8 8).toNat
    let b2 := (r.extractLsb' 16 8).toNat
    (le16 r).toNat = b0 + 256 * b1 ∧
    (le16 r).toInt = (if b0 + 256 * b1 < 2 ^ 15 then ((b0 + 256 * b1 : Nat) : Int) else (b0 + 256 * b1 : Nat) - 2 ^ 16) ∧
    (le8 r).toNat = b0 ∧
    (le8 r).toInt = (if b0 < 2 ^ 7 then (b0 : Int) else b0 - 2 ^ 8) ∧
    (h4Bits r).toNat = (b0 <<< 4) ||| (b1 &&& 0x0F) ∧
    (h5Bits r).toNat = (b2 <<< 4) ||| (b1 >>> 4) ∧
    (h4Bits r).toInt = (if (h4Bits r).toNat < 2 ^ 11 then ((h4Bits r).toNat : Int) else (h4Bits r).toNat - 2 ^ 12) ∧
    (h5Bits r).toInt = (if (h5Bits r).toNat < 2 ^ 11 then ((h5Bits r).toNat : Int) else (h5Bits r).toNat - 2 ^ 12) ∧
    (be20 r).toNat = (b0 <<< 12) + (b1 <<< 4) + (b2 >>> 4) ∧
    (be16 r).toNat = (b0 <<< 8) + b1

/-- R122, R123: every row of the calibration load: its read, with the offset and the byte count of the table (what
`bus_req_wdata` shows in a read is left open, log 9); when that read succeeds, the register or registers it writes, every
other register keeping its value; and which registers the engine reads as unsigned and which in two's complement (R20). -/
def Obligations.CalibrationRowsAreWrittenPerTable : Prop :=
  (List.ofFn calOffset =
    [0x88, 0x8A, 0x8C, 0x8E, 0x90, 0x92, 0x94, 0x96, 0x98, 0x9A, 0x9C, 0x9E, 0xA1, 0xE1, 0xE3, 0xE4, 0xE7]) ∧
  (List.ofFn calLen = [2, 2, 2, 2, 2, 2, 2, 2, 2, 2, 2, 2, 1, 2, 1, 3, 1]) ∧
  (∀ s : State, s.busy = true → s.curOp = .loadCal → s.engPhase = .off → s.waiting = false → s.flight = none →
    s.input.rst = false →
    ∃ w, step s = .next { s.clockEdge with
      flight := some ⟨false, s.params.devAddr, calOffset s.calIdx, calLen s.calIdx, w⟩ }) ∧
  (∀ (s : State) (r : BitVec 24) (i : Fin 17), s.busy = true → s.curOp = .loadCal → s.engPhase = .off →
    s.waiting = false → s.flight ≠ none → s.calIdx = i →
    s.input.rst = false → s.input.busRespValid = true → s.input.busRespErr = false → s.input.busRespRdata = r →
    ∃ c : Cal, step s = .next
        (if i = 16 then { s.clockEdge with
            cal := c, calValid := true, calIdx := 0, flight := none, busy := false, err := .ok, waiting := false,
            done := true }
          else { s.clockEdge with cal := c, calIdx := i + 1, flight := none }) ∧
      c = { s.cal with
        t1 := if i = 0 then le16 r else s.cal.t1
        t2 := if i = 1 then le16 r else s.cal.t2
        t3 := if i = 2 then le16 r else s.cal.t3
        p1 := if i = 3 then le16 r else s.cal.p1
        p2 := if i = 4 then le16 r else s.cal.p2
        p3 := if i = 5 then le16 r else s.cal.p3
        p4 := if i = 6 then le16 r else s.cal.p4
        p5 := if i = 7 then le16 r else s.cal.p5
        p6 := if i = 8 then le16 r else s.cal.p6
        p7 := if i = 9 then le16 r else s.cal.p7
        p8 := if i = 10 then le16 r else s.cal.p8
        p9 := if i = 11 then le16 r else s.cal.p9
        h1 := if i = 12 then le8 r else s.cal.h1
        h2 := if i = 13 then le16 r else s.cal.h2
        h3 := if i = 14 then le8 r else s.cal.h3
        h4 := if i = 15 then h4Bits r else s.cal.h4
        h5 := if i = 15 then h5Bits r else s.cal.h5
        h6 := if i = 16 then le8 r else s.cal.h6 }) ∧
  (∀ c : Cal,
    let signed := fun (w n : Nat) => if n < 2 ^ (w - 1) then (n : Int) else (n : Int) - 2 ^ w
    c.T1 = c.t1.toNat ∧ c.T2 = signed 16 c.t2.toNat ∧ c.T3 = signed 16 c.t3.toNat ∧
    c.P1 = c.p1.toNat ∧ c.P2 = signed 16 c.p2.toNat ∧ c.P3 = signed 16 c.p3.toNat ∧ c.P4 = signed 16 c.p4.toNat ∧
    c.P5 = signed 16 c.p5.toNat ∧ c.P6 = signed 16 c.p6.toNat ∧ c.P7 = signed 16 c.p7.toNat ∧
    c.P8 = signed 16 c.p8.toNat ∧ c.P9 = signed 16 c.p9.toNat ∧
    c.H1 = c.h1.toNat ∧ c.H2 = signed 16 c.h2.toNat ∧ c.H3 = c.h3.toNat ∧ c.H4 = signed 12 c.h4.toNat ∧
    c.H5 = signed 12 c.h5.toNat ∧ c.H6 = signed 8 c.h6.toNat)

/-- R66: every transaction the block ever issues is one of the list: a row of the calibration table, the trigger write,
a status read or a raw read, at the device address; never Chip ID, Control-humidity or 0xA0. That the write data of a
read are 0 is the model's choice (log 9). -/
def Obligations.OnlyListedTransactionsAreIssued : Prop :=
  ∀ (s s' : State) (t : Transaction), step s = .next s' → s'.flight = some t → s.flight ≠ some t →
    t.dev = s.params.devAddr ∧
    ((t.write = true ∧ t.off = 0xF4 ∧ t.len = 1 ∧ t.wdata = s.params.ctrlMeasTrigger ∧ s.curOp = .measure) ∨
      (t.write = false ∧ s.curOp = .loadCal ∧ ∃ i : Fin 17, t.off = calOffset i ∧ t.len = calLen i) ∨
      (t.write = false ∧ s.curOp = .measure ∧
        ((t.off = 0xF3 ∧ t.len = 1) ∨ (t.off = 0xF7 ∧ t.len = 3) ∨ (t.off = 0xFA ∧ t.len = 3) ∨
          (t.off = 0xFD ∧ t.len = 2)))) ∧
    t.off ≠ 0xD0 ∧ t.off ≠ 0xF2 ∧ t.off ≠ 0xA0 ∧
    (t.write = false → t.wdata = 0)

/-- R60, R77, R45: one transaction at a time: while one is in flight, a step ends it only when it is answered or at a reset,
and otherwise keeps it; it never starts another in its place. R44: in every state of the invariant the request ports show the
transaction in flight, with the data byte of a write, and `bus_req_valid` is low without one; that they do so at every
edge until the response is the model's choice (log 9). -/
def Obligations.OneTransactionAtATime : Prop :=
  (∀ (s s' : State) (t : Transaction), s.Inv → s.flight = some t → step s = .next s' →
    (s'.flight = none ∧ (s.input.rst = true ∨ s.input.busRespValid = true)) ∨
    (s'.flight = some t ∧ s.input.rst = false ∧ s.input.busRespValid = false ∧ s' = s.clockEdge)) ∧
  (∀ (s : State) (sel : BitVec 3), s.Inv →
    ((s.ports sel).busReqValid = true ↔ s.flight ≠ none) ∧
    ∀ t : Transaction, s.flight = some t →
      (s.ports sel).busReqWrite = t.write ∧ (s.ports sel).busReqDev = t.dev ∧ (s.ports sel).busReqOff = t.off ∧
      (s.ports sel).busReqLen.toNat = t.len ∧ (t.write = true → (s.ports sel).busReqWdata = t.wdata))

/-- R264, R126, R197: a failed transaction ends the command at once with BUS_ERROR. LOAD_CAL: no calibration register is
written, `cal_valid` stays 0 and `cal_idx` returns to 0. MEASURE: `mstate` and `rd_idx` return to 0, and the raw
registers, `t_fine`, the triple and `res_valid` keep their values. -/
def Obligations.BusErrorEndsTheCommand : Prop :=
  ∀ s : State, s.Inv → s.flight ≠ none →
    s.input.rst = false → s.input.busRespValid = true → s.input.busRespErr = true →
    (s.curOp = .loadCal → s.calValid = false ∧
      step s = .next { s.clockEdge with
        flight := none, calIdx := 0, busy := false, err := .busError, waiting := false, done := true }) ∧
    (s.curOp = .measure →
      step s = .next { s.clockEdge with
        flight := none, mstate := .idle, rdIdx := .pressure, busy := false, err := .busError, waiting := false,
        done := true }) ∧
    (s.curOp = .loadCal ∨ s.curOp = .measure)

/-! ### LOAD_CAL and MEASURE -/

/-- R120 to R125: a whole LOAD_CAL, whatever bytes answer and however late: it is taken, makes its 17 reads, writes all 18
registers, sets `cal_valid` and completes with OK; nothing else has changed. The number of steps is the model's (log 1). -/
def Obligations.LoadCalRunsToCompletion : Prop :=
  ∀ (s : State) (a : Fin 17 → Nat × BitVec 24) (rest : List PortIn), s.Ready → s.calValid = false →
    s.inputs = .offer 0x0100000000000000 :: loadInputs a ++ rest →
    RunsTo (1 + (loadInputs a).length) s { s with
      cal := {
        t1 := le16 (a 0).2, t2 := le16 (a 1).2, t3 := le16 (a 2).2
        p1 := le16 (a 3).2, p2 := le16 (a 4).2, p3 := le16 (a 5).2, p4 := le16 (a 6).2, p5 := le16 (a 7).2
        p6 := le16 (a 8).2, p7 := le16 (a 9).2, p8 := le16 (a 10).2, p9 := le16 (a 11).2
        h1 := le8 (a 12).2, h2 := le16 (a 13).2, h3 := le8 (a 14).2
        h4 := h4Bits (a 15).2, h5 := h5Bits (a 15).2, h6 := le8 (a 16).2 }
      calValid := true, curOp := .loadCal, err := .ok, done := true, inputs := rest }

/-- R190, R198 to R204: a whole MEASURE, whatever bytes answer, however late and after however many polls: it is taken,
completes with OK, and leaves the raw values, `t_fine` and the triple of this cycle; calibration and motor are
untouched. The number of steps is the model's (log 1), and so are the edges at the ends of a poll wait (log 12). -/
def Obligations.MeasureRunsToCompletion : Prop :=
  ∀ (s : State) (a : CycleAnswers) (rest : List PortIn), s.Ready → s.calValid = true → a.pollsEnd →
    s.inputs = .offer 0x0200000000000000 :: a.inputs s ++ rest →
    ∃ t, RunsTo (1 + (a.inputs s).length) s t ∧
      t.tFine.toInt = (a.raw s).cycleFine ∧ t.tRes.toInt = (a.raw s).cycleT ∧
      (t.pRes.toNat : Int) = (a.raw s).cycleP ∧ (t.hRes.toNat : Int) = (a.raw s).cycleH ∧
      t = { a.raw s with
        tFine := t.tFine, tRes := t.tRes, pRes := t.pRes, hRes := t.hRes, resValid := true
        v1 := t.v1, v2 := t.v2, acc := t.acc, tW := t.tW, pW := t.pW, hW := t.hW
        curOp := .measure, err := .ok, done := true, inputs := rest, freeCount := t.freeCount }

/-- R191: the transitions of the measurement state machine, complete: what a step without reset can do to `mstate`, and
at which event. (That a read carries the write data 0 is the model's choice, log 9; that the engine's end is an edge before
Ready is left is log 10.) -/
def Obligations.MeasurementStateTransitions : Prop :=
  ∀ s s' : State, s.Inv → s.input.rst = false → step s = .next s' → s'.mstate ≠ s.mstate →
    s.busy = true ∧ s.curOp = .measure ∧
    ((s.mstate = .idle ∧ s'.mstate = .triggered ∧ s.flight = some (s.writeRequest 0xF4 s.params.ctrlMeasTrigger) ∧
        s.input.busRespValid = true ∧ s.input.busRespErr = false) ∨
      (s.mstate = .triggered ∧ s'.mstate = .polling ∧ s.flight = none ∧ s.waiting = false) ∨
      (s.mstate = .polling ∧ s'.mstate = .ready ∧ s.flight = some (s.readRequest 0xF3 1) ∧
        s.input.busRespValid = true ∧ s.input.busRespErr = false ∧ s.input.busRespRdata.getLsbD 3 = false) ∨
      (s.mstate = .polling ∧ s'.mstate = .idle ∧ s.flight = some (s.readRequest 0xF3 1) ∧
        s.input.busRespValid = true ∧ s.input.busRespErr = true ∧ s'.err = .busError ∧ s'.busy = false) ∨
      (s.mstate = .ready ∧ s'.mstate = .idle ∧ s.engPhase = .done ∧ s'.err = .ok ∧ s'.busy = false) ∨
      (s.mstate = .ready ∧ s'.mstate = .idle ∧ s.engPhase = .off ∧
        s.flight = some (match s.rdIdx with
          | .pressure => s.readRequest 0xF7 3
          | .temperature => s.readRequest 0xFA 3
          | .humidity => s.readRequest 0xFD 2) ∧
        s.input.busRespValid = true ∧ s.input.busRespErr = true ∧ s'.err = .busError ∧ s'.busy = false))

/-- R194, R195: the trigger byte is written to 0xF4; when the write succeeds `mstate` is Triggered, and the next edge
makes it Polling with no transaction and no wait. -/
def Obligations.TriggerLeadsToPolling : Prop :=
  (∀ s : State, s.Inv → s.busy = true → s.curOp = .measure → s.mstate = .idle → s.flight = none →
    s.input.rst = false →
    step s = .next { s.clockEdge with
      flight := some ⟨true, s.params.devAddr, 0xF4, 1, s.params.ctrlMeasTrigger⟩ }) ∧
  (∀ s : State, s.Inv → s.busy = true → s.curOp = .measure → s.mstate = .idle → s.flight ≠ none →
    s.input.rst = false → s.input.busRespValid = true → s.input.busRespErr = false →
    step s = .next { s.clockEdge with flight := none, mstate := .triggered }) ∧
  (∀ s : State, s.Inv → s.mstate = .triggered → s.input.rst = false →
    step s = .next { s.clockEdge with mstate := .polling })

/-- R196, R198: one iteration of the poll loop: the status read is made, at 0xF3; answered with bit 3 set it waits the poll
interval and stays in Polling, with bit 3 clear it goes to Ready with no wait; the other seven bits do not matter.
What `bus_req_wdata` shows in the read is left open (log 9). -/
def Obligations.StatusBitThreeDecides : Prop :=
  (∀ s : State, s.Inv → s.mstate = .polling → s.flight = none → s.waiting = false → s.input.rst = false →
    ∃ w, step s = .next { s.clockEdge with flight := some ⟨false, s.params.devAddr, 0xF3, 1, w⟩ }) ∧
  ∀ s : State, s.Inv → s.mstate = .polling → s.flight ≠ none → s.input.rst = false →
    s.input.busRespValid = true → s.input.busRespErr = false →
    (s.input.busRespRdata.getLsbD 3 = true → step s = .next { s.clockEdge with
      flight := none, waiting := true, dlyCnt := s.params.pollIntervalUs }) ∧
    (s.input.busRespRdata.getLsbD 3 = false → step s = .next { s.clockEdge with
      flight := none, mstate := .ready })

/-- R199 to R203: the three raw reads in the order pressure, temperature, humidity, each with its offset and byte count;
after the humidity group the engine starts at E0. What `bus_req_wdata` shows in a read is left open (log 9). -/
def Obligations.RawGroupsAreReadInOrder : Prop :=
  ∀ s : State, s.Inv → s.mstate = .ready → s.engPhase = .off → s.input.rst = false →
    (s.flight = none →
      ∃ w, step s = .next { s.clockEdge with
        flight := some (match s.rdIdx with
          | .pressure => ⟨false, s.params.devAddr, 0xF7, 3, w⟩
          | .temperature => ⟨false, s.params.devAddr, 0xFA, 3, w⟩
          | .humidity => ⟨false, s.params.devAddr, 0xFD, 2, w⟩) }) ∧
    (s.flight ≠ none → s.input.busRespValid = true → s.input.busRespErr = false →
      (s.rdIdx = .pressure → step s = .next { s.clockEdge with
        flight := none, adcP := be20 s.input.busRespRdata, rdIdx := .temperature }) ∧
      (s.rdIdx = .temperature → step s = .next { s.clockEdge with
        flight := none, adcT := be20 s.input.busRespRdata, rdIdx := .humidity }) ∧
      (s.rdIdx = .humidity → step s = .next { s.clockEdge with
        flight := none, adcH := be16 s.input.busRespRdata, rdIdx := .pressure, engStep := 0, engPhase := .running }))

/-! ### The motor -/

/-- R227: the integer form of ROTATE_BY's step count, `min(N, HALF − pos)` or `min(N, HALF + pos)` with
`N = (A × RES) div 360`, is R226's floor of the exact rational, for every legal RES and every position in range. -/
def Obligations.RotateByIntegerFormIsExact : Prop :=
  ∀ (p : Params) (pos : Int) (cw : Bool) (A : Nat), p.wf → -halfTurn p ≤ pos → pos ≤ halfTurn p →
    (rotateByUnits p pos cw A : Int) =
      min ((A * p.res / 360 : Nat) : Int) (if cw then (p.res / 2 : Nat) - pos else (p.res / 2 : Nat) + pos) ∧
    (rotateByUnits p pos cw A : Int) = rotateByUnitsExact p pos cw A

/-- R231: with `q = tc × RES / 360`, ROTATE_TO goes forward exactly when delta > 0, that is when `tc × RES > pos × 360`, with
`S = floor(q) − pos` and the end position floor(q); else backward with `S = pos − ceil(q)` and the end position ceil(q). S is
R230's floor of the exact rational, and the end position lies in the range. -/
def Obligations.RotateToIntegerFormIsExact : Prop :=
  ∀ (p : Params) (pos TGT : Int), p.wf → -halfTurn p ≤ pos → pos ≤ halfTurn p →
    let tc := max (-180) (min TGT 180)
    let q : ℚ := (tc : ℚ) * (p.res : ℚ) / 360
    (rotateToDir p pos TGT = .forward ↔ 0 < rotateToDelta p pos TGT) ∧
    (rotateToDir p pos TGT = .forward ↔ tc * p.res > pos * 360) ∧
    (rotateToUnits p pos TGT : Int) = rotateToUnitsExact p pos TGT ∧
    (rotateToDir p pos TGT = .forward →
      (rotateToUnits p pos TGT : Int) = ⌊q⌋ - pos ∧ rotateToEnd p pos TGT = ⌊q⌋) ∧
    (rotateToDir p pos TGT = .backward →
      (rotateToUnits p pos TGT : Int) = pos - ⌈q⌉ ∧ rotateToEnd p pos TGT = ⌈q⌉) ∧
    -halfTurn p ≤ rotateToEnd p pos TGT ∧ rotateToEnd p pos TGT ≤ halfTurn p

/-- R232: ROTATE_TO is idempotent: from the end position of a first call a second call with the same target has no unit
to drive. -/
def Obligations.RotateToIsIdempotent : Prop :=
  ∀ (p : Params) (pos TGT : Int), p.wf → -halfTurn p ≤ pos → pos ≤ halfTurn p →
    rotateToUnits p (rotateToEnd p pos TGT) TGT = 0

/-- R235, R234: one activation: the coils take row i of the table, `seq_idx` is i, and the wait of `step_delay` starts;
i ascends from 0 forward and descends from 7 backward. -/
def Obligations.ActivationDrivesTheNextEntry : Prop :=
  ∀ s : State, s.Inv → s.motorRunning → s.waiting = false → s.entLeft ≠ 0 → s.input.rst = false →
    ∃ i : BitVec 3,
      i.toNat = (match s.dir with
        | .forward => s.params.epu - s.entLeft.toNat
        | .backward => 7 - (s.params.epu - s.entLeft.toNat)) ∧
      step s = .next { s.clockEdge with
        coil := s.params.seq[i.toNat], seqIdx := i, waiting := true, dlyCnt := s.stepDelay }

/-- R236: after the last activation of a unit `pos` moves by exactly one in the direction of travel and `units_left` falls
by one; no coil changes. R271, R235, R238: with no unit left the command completes with OK; `pos`, `seq_idx` and the
last coil pattern stay. That the edge which ends a unit loads `ent_left` for the next one is the model's choice (log 11). -/
def Obligations.UnitEndMovesPositionByOne : Prop :=
  ∀ s : State, s.Inv → s.motorRunning → s.waiting = false → s.entLeft = 0 → s.input.rst = false →
    (s.unitsLeft ≠ 0 → ∃ t, step s = .next t ∧
      t.pos.toInt = (match s.dir with | .forward => s.pos.toInt + 1 | .backward => s.pos.toInt - 1) ∧
      t.unitsLeft.toNat + 1 = s.unitsLeft.toNat ∧
      t = { s.clockEdge with
        pos := t.pos, unitsLeft := t.unitsLeft
        entLeft := if t.unitsLeft = 0 then 0 else BitVec.ofNat 4 s.params.epu }) ∧
    (s.unitsLeft = 0 →
      step s = .next { s.clockEdge with busy := false, err := .ok, waiting := false, done := true })

/-- R236, R229: through every step of a motor command the position it is moving to stays the same, and when it completes
`pos` is that position; so the end position is the one fixed when the command was taken. -/
def Obligations.MotorReachesItsDestination : Prop :=
  ∀ s s' : State, s.Inv → s.motorRunning → s.input.rst = false → step s = .next s' →
    (s'.motorRunning ∧ s'.destination = s.destination ∧ s'.dir = s.dir) ∨
    (s'.busy = false ∧ s'.err = .ok ∧ s'.position = s.destination ∧ s'.position = s.position)

/-- R226, R234 to R236: a whole ROTATE_BY, for every operand, every position, every EPU and every delay: it drives
`S × EPU` activations with a wait of D after each, moves `pos` by S and completes with OK; the last pattern stays on the
coils. The number of steps is the model's (log 1), and so are the edges at the ends of a wait (log 12). -/
def Obligations.RotateByRunsToCompletion : Prop :=
  ∀ (s : State) (cw : Bool) (A D : Nat) (w : CommandWord) (rest : List PortIn), s.Ready →
    A < 2 ^ 16 → D < 2 ^ 32 → encode (.rotateBy cw A D) = .command w →
    let S := rotateByUnits s.params s.position cw A
    s.inputs = .offer w :: motorInputs S s.params.epu D ++ rest →
    RunsTo (1 + (motorInputs S s.params.epu D).length) s
      (motorFinal s .rotateBy (if cw then .forward else .backward) S D rest)

/-- R230, R234 to R236: a whole ROTATE_TO, for every target, every position, every EPU and every delay: it completes with
OK and `pos` is the end position of R231. The number of steps is the model's (log 1), and so are the edges at the ends of a wait (log 12). -/
def Obligations.RotateToRunsToCompletion : Prop :=
  ∀ (s : State) (TGT : Int) (D : Nat) (w : CommandWord) (rest : List PortIn), s.Ready →
    -32768 ≤ TGT → TGT ≤ 32767 → D < 2 ^ 32 → encode (.rotateTo TGT D) = .command w →
    let S := rotateToUnits s.params s.position TGT
    let d := rotateToDir s.params s.position TGT
    s.inputs = .offer w :: motorInputs S s.params.epu D ++ rest →
    RunsTo (1 + (motorInputs S s.params.epu D).length) s (motorFinal s .rotateTo d S D rest) ∧
    (motorFinal s .rotateTo d S D rest).position = rotateToEnd s.params s.position TGT

/-! ### Waits and hangs -/

/-- R280: inside a wait, `dly_cnt` counts down at a tick and only then, and at 0 the wait ends without a tick; in a motor
command the activation is then over. Nothing else changes. -/
def Obligations.WaitCountsTicks : Prop :=
  ∀ s : State, s.Inv → s.waiting = true → s.input.rst = false →
    (s.dlyCnt ≠ 0 → s.input.tickUs = true → ∃ t, step s = .next t ∧ t.dlyCnt.toNat + 1 = s.dlyCnt.toNat ∧
      t = { s.clockEdge with dlyCnt := t.dlyCnt }) ∧
    (s.dlyCnt ≠ 0 → s.input.tickUs = false → step s = .next s.clockEdge) ∧
    (s.dlyCnt = 0 → s.curOp = .measure → step s = .next { s.clockEdge with waiting := false }) ∧
    (s.dlyCnt = 0 → s.curOp ≠ .measure → step s = .next { s.clockEdge with
      waiting := false, entLeft := s.entLeft - 1 })

/-- R274: no timeout is invented: however many edges pass, a transaction without an answer, a wait without ticks and a
status bit that stays set leave the command in progress. An empty list of inputs means that every input stays low (log 2), and
the edges of a poll and of its wait are counted as the model has them (logs 1 and 12): these are the model's choices. -/
def Obligations.HangsAreKept : Prop :=
  (∀ (n : Nat) (s : State), s.Inv → s.flight ≠ none → s.inputs = [] → RunsTo n s s) ∧
  (∀ (n : Nat) (s : State), s.Inv → s.waiting = true → s.dlyCnt ≠ 0 → s.inputs = [] →
    RunsTo n s s) ∧
  (∀ (s : State) (polls : List (Nat × BitVec 24)) (rest : List PortIn), s.Inv → s.mstate = .polling →
    s.flight = none → s.waiting = false → (∀ p ∈ polls, measuring p.2 = true) →
    s.inputs = pollInputs s.params.pollIntervalUs.toNat polls ++ rest →
    RunsTo (pollInputs s.params.pollIntervalUs.toNat polls).length s { s with inputs := rest })

/-! ### Reset -/

/-- R291: an idle block executes nothing until a command is offered: an edge without one changes nothing but the end of the
`done` pulse. R290, R292, R47: at an edge with `rst` = 1, in whatever state, even inside a command, every element to which R47 gives
a reset value takes it; the parameters stay and the inputs to come are untouched. The registers R47 calls unspecified
are not mentioned: nothing is claimed of them (log 5). -/
def Obligations.ResetEdgeRestoresTheResetValues : Prop :=
  (∀ s : State, s.busy = false → s.input.rst = false → s.input.cmdValid = false →
    step s = .next { s with inputs := s.inputs.tail, done := false }) ∧
  ∀ s : State, s.input.rst = true → ∃ t, step s = .next t ∧
    t.busy = false ∧ t.calValid = false ∧ t.resValid = false ∧ t.err = .ok ∧ t.mstate = .idle ∧
    t.curOp.bits = 0 ∧ t.calIdx = 0 ∧ t.rdIdx.bits = 0 ∧ t.engStep = 0 ∧ t.engPhase = .off ∧
    t.unitsLeft = 0 ∧ t.entLeft = 0 ∧ t.dir.bits = 0 ∧ t.stepDelay = 0 ∧ t.waiting = false ∧ t.dlyCnt = 0 ∧
    t.pos = 0 ∧ t.seqIdx = 0 ∧ t.coil = 0 ∧ t.done = false ∧ t.flight = none ∧
    t.params = s.params ∧ t.inputs = s.inputs.tail ∧ t.status = 0 ∧
    ∀ sel, (t.ports sel).cmdReady = true ∧ (t.ports sel).done = false ∧ (t.ports sel).busReqValid = false

/-! ### The host's view -/

/-- R40, R41: STATUS field by field, the other registers, and 0 for `rd_sel` 6 and 7; and R44's rows `rd_data`, `cmd_ready` and
`coil_out`. -/
def Obligations.HostReadsTheSixRegisters : Prop :=
  ∀ s : State,
    (s.hostRead 0).getLsbD 0 = s.busy ∧ (s.hostRead 0).getLsbD 1 = s.calValid ∧
    (s.hostRead 0).getLsbD 2 = s.resValid ∧ (s.hostRead 0).getLsbD 3 = false ∧
    (s.hostRead 0).extractLsb' 4 4 = s.err.bits ∧ (s.hostRead 0).extractLsb' 8 2 = s.mstate.bits ∧
    (s.hostRead 0).extractLsb' 10 22 = 0 ∧
    s.hostRead 1 = s.tRes ∧ s.hostRead 2 = s.pRes ∧ s.hostRead 3 = s.hRes ∧
    (s.hostRead 4).toInt = s.pos.toInt ∧
    (s.hostRead 5).extractLsb' 0 4 = s.coil ∧ (s.hostRead 5).extractLsb' 4 3 = s.seqIdx ∧
    (s.hostRead 5).extractLsb' 7 25 = 0 ∧
    s.hostRead 6 = 0 ∧ s.hostRead 7 = 0 ∧
    ∀ sel, (s.ports sel).rdData = s.hostRead sel ∧ ((s.ports sel).cmdReady = true ↔ s.busy = false) ∧
      (s.ports sel).coilOut = s.coil

/-! ### Whole-machine rules -/

/-- The state after reset satisfies the invariant (the parameters it holds are the model's named values, log 3). -/
def Obligations.ResetSatisfiesTheInvariant : Prop := State.reset.Inv

/-- From every state that satisfies the invariant, a step leads to one that does: among others −HALF ≤ pos ≤ HALF (R34),
`mstate` ≠ Idle only inside MEASURE (R191), MEASURE only with a loaded calibration (R22), and the transaction in flight
always the one the sequence has come to (R77). -/
def Obligations.StepKeepsTheInvariant : Prop :=
  ∀ s s' : State, s.Inv → step s = .next s' → s'.Inv

/-- From every state that satisfies the invariant a step answers a next state: no fault, no refusal. -/
def Obligations.InvariantStatesNeverStop : Prop := ∀ s : State, s.Inv → SafeStep s

/-- R22, R128: once `cal_valid` = 1, no step but a reset changes `cal` or clears `cal_valid`. -/
def Obligations.CalibrationIsImmutableOnceValid : Prop :=
  ∀ s s' : State, s.Inv → s.calValid = true → s.input.rst = false → step s = .next s' →
    s'.cal = s.cal ∧ s'.calValid = true

/-- R303, R173, R25: the triple, `t_fine` and `res_valid` change only inside the engine: the triple and `res_valid` only at
E22, all together, and `t_fine` only at E2. -/
def Obligations.ResultsChangeOnlyAtCommit : Prop :=
  ∀ s s' : State, s.input.rst = false → step s = .next s' →
    (¬ (s.busy = true ∧ s.engPhase = .running ∧ s.engStep = 22) →
      s'.tRes = s.tRes ∧ s'.pRes = s.pRes ∧ s'.hRes = s.hRes ∧ s'.resValid = s.resValid) ∧
    (¬ (s.busy = true ∧ s.engPhase = .running ∧ s.engStep = 2) → s'.tFine = s.tFine)

/-- R34, R236: `pos` changes only at the end of a unit of a motor command, by exactly one, and never leaves the range;
without a motor command the coils and `seq_idx` keep their values. -/
def Obligations.PositionChangesOnlyAtUnitEnds : Prop :=
  ∀ s s' : State, s.Inv → s.input.rst = false → step s = .next s' →
    (s'.pos ≠ s.pos → s.motorRunning ∧ s.waiting = false ∧ s.entLeft = 0 ∧ s.unitsLeft ≠ 0 ∧
      (s'.pos.toInt = s.pos.toInt + 1 ∨ s'.pos.toInt = s.pos.toInt - 1)) ∧
    (-halfTurn s.params ≤ s'.position ∧ s'.position ≤ halfTurn s.params) ∧
    (s.motorRunning ∨ (s'.coil = s.coil ∧ s'.seqIdx = s.seqIdx))

/-- R120, R190, R226: each command touches only its own part: LOAD_CAL no motor and no measurement register, MEASURE no
motor register and no calibration, the motor commands no calibration, no measurement register and no bus. -/
def Obligations.CommandsTouchOnlyTheirOwnState : Prop :=
  ∀ s s' : State, s.Inv → s.busy = true → s.input.rst = false → step s = .next s' →
    (s.curOp = .loadCal →
      s'.adcP = s.adcP ∧ s'.adcT = s.adcT ∧ s'.adcH = s.adcH ∧ s'.tFine = s.tFine ∧ s'.tRes = s.tRes ∧
      s'.pRes = s.pRes ∧ s'.hRes = s.hRes ∧ s'.mstate = .idle ∧ s'.resValid = s.resValid ∧
      s'.pos = s.pos ∧ s'.seqIdx = s.seqIdx ∧ s'.coil = s.coil) ∧
    (s.curOp = .measure →
      s'.cal = s.cal ∧ s'.calValid = s.calValid ∧ s'.pos = s.pos ∧ s'.seqIdx = s.seqIdx ∧ s'.coil = s.coil) ∧
    (s.motorRunning →
      s'.cal = s.cal ∧ s'.calValid = s.calValid ∧ s'.adcP = s.adcP ∧ s'.adcT = s.adcT ∧ s'.adcH = s.adcH ∧
      s'.tFine = s.tFine ∧ s'.tRes = s.tRes ∧ s'.pRes = s.pRes ∧ s'.hRes = s.hRes ∧ s'.resValid = s.resValid ∧
      s'.mstate = .idle ∧ s'.flight = none) ∧
    s'.params = s.params

/-- R35: every flag changes only as its row says: `busy` is set by acceptance and cleared by completion, `cal_valid` by the
last read of LOAD_CAL, `res_valid` by E22, and `err` with `done` at a completion or a refusal. R44: the port `done` is high after exactly the steps that
complete a command or refuse a word (that it is high from that edge to the next is the model's choice, log 25). -/
def Obligations.FlagsChangeOnlyAsListed : Prop :=
  ∀ s s' : State, s.Inv → s.input.rst = false → step s = .next s' →
    (s.busy = false → s'.busy = true → s.input.cmdValid = true ∧ ∃ i, decode (.command s.input.cmd) = .ok i) ∧
    (s.busy = true → s'.busy = false → s'.done = true) ∧
    (s.calValid = false → s'.calValid = true →
      s.busy = true ∧ s.curOp = .loadCal ∧ s.calIdx = 16 ∧ s'.busy = false ∧ s'.err = .ok) ∧
    (s.calValid = true → s'.calValid = true) ∧
    (s.resValid = false → s'.resValid = true → s.busy = true ∧ s.engPhase = .running ∧ s.engStep = 22) ∧
    (s.resValid = true → s'.resValid = true) ∧
    (s'.err ≠ s.err → s'.done = true) ∧
    (s'.done = true → s'.busy = false) ∧
    (∀ sel, (s'.ports sel).done = true ↔
      s'.busy = false ∧ (s.busy = true ∨ s.input.cmdValid = true))

/-- R31, R266: what a refusal and an acceptance show outside: a refused word is one event, the refusal; an accepted
command is one event, the acceptance. That a refusal is an event is the model's choice (log 29). -/
def Obligations.PortEventsAreRefusalOrAcceptance : Prop :=
  ∀ s s' : State, s.Inv → s.busy = false → s.input.rst = false → s.input.cmdValid = true → step s = .next s' →
    (s'.busy = false ∧ stepEvents s s' = [.refused s'.err] ∧ s' = { s.clockEdge with err := s'.err, done := true }) ∨
    (s'.busy = true ∧ stepEvents s s' = [.accepted s'.curOp])
end

