-- ==== Sys2Proof/Laws/Decode.lean ====
section
/-! SUPPORT. Laws/Decode.lean: the fields of a word made by `commandWord`, the decoder on each opcode, and which codes
give commands. -/

namespace Sys2Proof

variable (op : BitVec 8) (cw : Bool) (a : BitVec 16) (d : BitVec 32)

/-! ### The fields of a word made from fields -/

@[simp] theorem opcodeField_commandWord : opcodeField (commandWord op cw a d) = op := by
  ext i hi
  simp only [opcodeField, commandWord, BitVec.getElem_extractLsb', BitVec.getLsbD_append]
  grind

@[simp] theorem rsvField_commandWord : rsvField (commandWord op cw a d) = 0 := by
  ext i hi
  simp only [rsvField, commandWord, BitVec.getElem_extractLsb', BitVec.getLsbD_append]
  grind

@[simp] theorem dirbitField_commandWord : dirbitField (commandWord op cw a d) = BitVec.ofBool cw := by
  ext i hi
  simp only [dirbitField, commandWord, BitVec.getElem_extractLsb', BitVec.getLsbD_append]
  grind

@[simp] theorem angleField_commandWord : angleField (commandWord op cw a d) = a := by
  ext i hi
  simp only [angleField, commandWord, BitVec.getElem_extractLsb', BitVec.getLsbD_append]
  grind

@[simp] theorem delayField_commandWord : delayField (commandWord op cw a d) = d := by
  ext i hi
  simp only [delayField, commandWord, BitVec.getElem_extractLsb', BitVec.getLsbD_append]
  grind

/-- A format N word leaves bits [48:0] zero. -/
@[simp] theorem operandField_commandWord_plain : operandField (commandWord op false 0#16 0#32) = 0#49 := by
  ext i hi
  simp only [operandField, commandWord, BitVec.getElem_extractLsb', BitVec.getLsbD_append]
  simp; grind

/-- Masking a word made from fields masks each field. -/
theorem commandWord_and (k : BitVec 8) (r : BitVec 7) (c : BitVec 1) (ka : BitVec 16) (kd : BitVec 32) :
    commandWord op cw a d &&& (k ++ r ++ c ++ ka ++ kd) =
      (op &&& k) ++ ((0 : BitVec 7) &&& r) ++ (BitVec.ofBool cw &&& c) ++ (a &&& ka) ++ (d &&& kd) := by
  have e1 := BitVec.and_append (x₁ := op ++ (0 : BitVec 7) ++ BitVec.ofBool cw ++ a) (x₂ := k ++ r ++ c ++ ka)
    (y₁ := d) (y₂ := kd)
  have e2 := BitVec.and_append (x₁ := op ++ (0 : BitVec 7) ++ BitVec.ofBool cw) (x₂ := k ++ r ++ c)
    (y₁ := a) (y₂ := ka)
  have e3 := BitVec.and_append (x₁ := op ++ (0 : BitVec 7)) (x₂ := k ++ r) (y₁ := BitVec.ofBool cw) (y₂ := c)
  have e4 := BitVec.and_append (x₁ := op) (x₂ := k) (y₁ := (0 : BitVec 7)) (y₂ := r)
  exact e1.trans (congrArg (· ++ (d &&& kd)) (e2.trans (congrArg (· ++ (a &&& ka))
    (e3.trans (congrArg (· ++ (BitVec.ofBool cw &&& c)) e4)))))

/-! ### A word is its fields -/

/-- Every word is made of its five fields (R92). -/
theorem fields_append (w : CommandWord) :
    (opcodeField w ++ rsvField w ++ dirbitField w ++ angleField w ++ delayField w) = w := by
  ext i hi
  simp only [opcodeField, rsvField, dirbitField, angleField, delayField, BitVec.getElem_append,
    BitVec.getElem_extractLsb']
  grind

/-- Bits [48:0] are zero exactly when dirbit, angle and delay are. -/
theorem operandField_eq_zero {w : CommandWord} (h : operandField w = 0) :
    dirbitField w = 0 ∧ angleField w = 0 ∧ delayField w = 0 := by
  have hb : ∀ i < 49, w.getLsbD i = false := by
    intro i hi
    have := congrArg (·.getLsbD i) h
    simpa [operandField, hi] using this
  refine ⟨?_, ?_, ?_⟩ <;> ext i hi <;> simp [dirbitField, angleField, delayField] <;> apply hb <;> omega

/-! ### Which codes give commands -/

theorem rotateByOf_isCommand (c : Bool) (A D : Nat) : (rotateByOf c A D).isCommand = true := by
  unfold rotateByOf
  split
  · cases c <;> rfl
  · rfl

/-- A command word never decodes to a micro-step. -/
theorem decodeCommand_isCommand {w : CommandWord} {i : Instr} (h : decodeCommand w = .ok i) : i.isCommand = true := by
  unfold decodeCommand at h
  repeat' split at h
  all_goals cases h
  all_goals first | rfl | exact rotateByOf_isCommand _ _ _

/-- A value of `eng_step` decodes exactly when it is at most 22 (R103). -/
theorem decodeMicroStep_isSome : ∀ k : MicroStepCode, (decodeMicroStep k).toOption.isSome = decide (k.toNat ≤ 22) := by
  decide

/-- A value of `eng_step` never decodes to a command. -/
theorem decodeMicroStep_not_command :
    ∀ k : MicroStepCode, (decodeMicroStep k).toOption.all (fun i => !i.isCommand) = true := by decide

/-- The micro-step of a number is the one whose encoding is that number. -/
theorem encode_decodeMicroStep :
    ∀ k : MicroStepCode, (decodeMicroStep k).toOption.all (fun i => encode i == .microStep k) = true := by decide

end Sys2Proof
end

