-- ==== Sys2Proof/Laws/State.lean ====
section
/-! SUPPORT. Laws/State.lean: one lemma for each field and each named update of State, true by rfl, so that no proof
unfolds a record update. -/

namespace Sys2Proof.Machine.State

variable (s : State)

/-! ### clockEdge -/

@[simp] theorem clockEdge_params : (s.clockEdge).params = s.params := rfl
@[simp] theorem clockEdge_cal : (s.clockEdge).cal = s.cal := rfl
@[simp] theorem clockEdge_adcP : (s.clockEdge).adcP = s.adcP := rfl
@[simp] theorem clockEdge_adcT : (s.clockEdge).adcT = s.adcT := rfl
@[simp] theorem clockEdge_adcH : (s.clockEdge).adcH = s.adcH := rfl
@[simp] theorem clockEdge_tFine : (s.clockEdge).tFine = s.tFine := rfl
@[simp] theorem clockEdge_tRes : (s.clockEdge).tRes = s.tRes := rfl
@[simp] theorem clockEdge_pRes : (s.clockEdge).pRes = s.pRes := rfl
@[simp] theorem clockEdge_hRes : (s.clockEdge).hRes = s.hRes := rfl
@[simp] theorem clockEdge_v1 : (s.clockEdge).v1 = s.v1 := rfl
@[simp] theorem clockEdge_v2 : (s.clockEdge).v2 = s.v2 := rfl
@[simp] theorem clockEdge_acc : (s.clockEdge).acc = s.acc := rfl
@[simp] theorem clockEdge_tW : (s.clockEdge).tW = s.tW := rfl
@[simp] theorem clockEdge_pW : (s.clockEdge).pW = s.pW := rfl
@[simp] theorem clockEdge_hW : (s.clockEdge).hW = s.hW := rfl
@[simp] theorem clockEdge_busy : (s.clockEdge).busy = s.busy := rfl
@[simp] theorem clockEdge_curOp : (s.clockEdge).curOp = s.curOp := rfl
@[simp] theorem clockEdge_mstate : (s.clockEdge).mstate = s.mstate := rfl
@[simp] theorem clockEdge_calIdx : (s.clockEdge).calIdx = s.calIdx := rfl
@[simp] theorem clockEdge_rdIdx : (s.clockEdge).rdIdx = s.rdIdx := rfl
@[simp] theorem clockEdge_engStep : (s.clockEdge).engStep = s.engStep := rfl
@[simp] theorem clockEdge_engPhase : (s.clockEdge).engPhase = s.engPhase := rfl
@[simp] theorem clockEdge_unitsLeft : (s.clockEdge).unitsLeft = s.unitsLeft := rfl
@[simp] theorem clockEdge_entLeft : (s.clockEdge).entLeft = s.entLeft := rfl
@[simp] theorem clockEdge_dir : (s.clockEdge).dir = s.dir := rfl
@[simp] theorem clockEdge_stepDelay : (s.clockEdge).stepDelay = s.stepDelay := rfl
@[simp] theorem clockEdge_waiting : (s.clockEdge).waiting = s.waiting := rfl
@[simp] theorem clockEdge_dlyCnt : (s.clockEdge).dlyCnt = s.dlyCnt := rfl
@[simp] theorem clockEdge_pos : (s.clockEdge).pos = s.pos := rfl
@[simp] theorem clockEdge_seqIdx : (s.clockEdge).seqIdx = s.seqIdx := rfl
@[simp] theorem clockEdge_coil : (s.clockEdge).coil = s.coil := rfl
@[simp] theorem clockEdge_calValid : (s.clockEdge).calValid = s.calValid := rfl
@[simp] theorem clockEdge_resValid : (s.clockEdge).resValid = s.resValid := rfl
@[simp] theorem clockEdge_err : (s.clockEdge).err = s.err := rfl
@[simp] theorem clockEdge_done : (s.clockEdge).done = false := rfl
@[simp] theorem clockEdge_flight : (s.clockEdge).flight = s.flight := rfl
@[simp] theorem clockEdge_inputs : (s.clockEdge).inputs = s.inputs.tail := rfl
@[simp] theorem clockEdge_freeCount : (s.clockEdge).freeCount = s.freeCount := rfl

/-! ### complete -/

@[simp] theorem complete_params (c : CompletionCode) : (s.complete c).params = s.params := rfl
@[simp] theorem complete_cal (c : CompletionCode) : (s.complete c).cal = s.cal := rfl
@[simp] theorem complete_adcP (c : CompletionCode) : (s.complete c).adcP = s.adcP := rfl
@[simp] theorem complete_adcT (c : CompletionCode) : (s.complete c).adcT = s.adcT := rfl
@[simp] theorem complete_adcH (c : CompletionCode) : (s.complete c).adcH = s.adcH := rfl
@[simp] theorem complete_tFine (c : CompletionCode) : (s.complete c).tFine = s.tFine := rfl
@[simp] theorem complete_tRes (c : CompletionCode) : (s.complete c).tRes = s.tRes := rfl
@[simp] theorem complete_pRes (c : CompletionCode) : (s.complete c).pRes = s.pRes := rfl
@[simp] theorem complete_hRes (c : CompletionCode) : (s.complete c).hRes = s.hRes := rfl
@[simp] theorem complete_v1 (c : CompletionCode) : (s.complete c).v1 = s.v1 := rfl
@[simp] theorem complete_v2 (c : CompletionCode) : (s.complete c).v2 = s.v2 := rfl
@[simp] theorem complete_acc (c : CompletionCode) : (s.complete c).acc = s.acc := rfl
@[simp] theorem complete_tW (c : CompletionCode) : (s.complete c).tW = s.tW := rfl
@[simp] theorem complete_pW (c : CompletionCode) : (s.complete c).pW = s.pW := rfl
@[simp] theorem complete_hW (c : CompletionCode) : (s.complete c).hW = s.hW := rfl
@[simp] theorem complete_busy (c : CompletionCode) : (s.complete c).busy = false := rfl
@[simp] theorem complete_curOp (c : CompletionCode) : (s.complete c).curOp = s.curOp := rfl
@[simp] theorem complete_mstate (c : CompletionCode) : (s.complete c).mstate = s.mstate := rfl
@[simp] theorem complete_calIdx (c : CompletionCode) : (s.complete c).calIdx = s.calIdx := rfl
@[simp] theorem complete_rdIdx (c : CompletionCode) : (s.complete c).rdIdx = s.rdIdx := rfl
@[simp] theorem complete_engStep (c : CompletionCode) : (s.complete c).engStep = s.engStep := rfl
@[simp] theorem complete_engPhase (c : CompletionCode) : (s.complete c).engPhase = s.engPhase := rfl
@[simp] theorem complete_unitsLeft (c : CompletionCode) : (s.complete c).unitsLeft = s.unitsLeft := rfl
@[simp] theorem complete_entLeft (c : CompletionCode) : (s.complete c).entLeft = s.entLeft := rfl
@[simp] theorem complete_dir (c : CompletionCode) : (s.complete c).dir = s.dir := rfl
@[simp] theorem complete_stepDelay (c : CompletionCode) : (s.complete c).stepDelay = s.stepDelay := rfl
@[simp] theorem complete_waiting (c : CompletionCode) : (s.complete c).waiting = false := rfl
@[simp] theorem complete_dlyCnt (c : CompletionCode) : (s.complete c).dlyCnt = s.dlyCnt := rfl
@[simp] theorem complete_pos (c : CompletionCode) : (s.complete c).pos = s.pos := rfl
@[simp] theorem complete_seqIdx (c : CompletionCode) : (s.complete c).seqIdx = s.seqIdx := rfl
@[simp] theorem complete_coil (c : CompletionCode) : (s.complete c).coil = s.coil := rfl
@[simp] theorem complete_calValid (c : CompletionCode) : (s.complete c).calValid = s.calValid := rfl
@[simp] theorem complete_resValid (c : CompletionCode) : (s.complete c).resValid = s.resValid := rfl
@[simp] theorem complete_err (c : CompletionCode) : (s.complete c).err = c := rfl
@[simp] theorem complete_done (c : CompletionCode) : (s.complete c).done = true := rfl
@[simp] theorem complete_flight (c : CompletionCode) : (s.complete c).flight = s.flight := rfl
@[simp] theorem complete_inputs (c : CompletionCode) : (s.complete c).inputs = s.inputs := rfl
@[simp] theorem complete_freeCount (c : CompletionCode) : (s.complete c).freeCount = s.freeCount := rfl

/-! ### refuse -/

@[simp] theorem refuse_params (c : CompletionCode) : (s.refuse c).params = s.params := rfl
@[simp] theorem refuse_cal (c : CompletionCode) : (s.refuse c).cal = s.cal := rfl
@[simp] theorem refuse_adcP (c : CompletionCode) : (s.refuse c).adcP = s.adcP := rfl
@[simp] theorem refuse_adcT (c : CompletionCode) : (s.refuse c).adcT = s.adcT := rfl
@[simp] theorem refuse_adcH (c : CompletionCode) : (s.refuse c).adcH = s.adcH := rfl
@[simp] theorem refuse_tFine (c : CompletionCode) : (s.refuse c).tFine = s.tFine := rfl
@[simp] theorem refuse_tRes (c : CompletionCode) : (s.refuse c).tRes = s.tRes := rfl
@[simp] theorem refuse_pRes (c : CompletionCode) : (s.refuse c).pRes = s.pRes := rfl
@[simp] theorem refuse_hRes (c : CompletionCode) : (s.refuse c).hRes = s.hRes := rfl
@[simp] theorem refuse_v1 (c : CompletionCode) : (s.refuse c).v1 = s.v1 := rfl
@[simp] theorem refuse_v2 (c : CompletionCode) : (s.refuse c).v2 = s.v2 := rfl
@[simp] theorem refuse_acc (c : CompletionCode) : (s.refuse c).acc = s.acc := rfl
@[simp] theorem refuse_tW (c : CompletionCode) : (s.refuse c).tW = s.tW := rfl
@[simp] theorem refuse_pW (c : CompletionCode) : (s.refuse c).pW = s.pW := rfl
@[simp] theorem refuse_hW (c : CompletionCode) : (s.refuse c).hW = s.hW := rfl
@[simp] theorem refuse_busy (c : CompletionCode) : (s.refuse c).busy = s.busy := rfl
@[simp] theorem refuse_curOp (c : CompletionCode) : (s.refuse c).curOp = s.curOp := rfl
@[simp] theorem refuse_mstate (c : CompletionCode) : (s.refuse c).mstate = s.mstate := rfl
@[simp] theorem refuse_calIdx (c : CompletionCode) : (s.refuse c).calIdx = s.calIdx := rfl
@[simp] theorem refuse_rdIdx (c : CompletionCode) : (s.refuse c).rdIdx = s.rdIdx := rfl
@[simp] theorem refuse_engStep (c : CompletionCode) : (s.refuse c).engStep = s.engStep := rfl
@[simp] theorem refuse_engPhase (c : CompletionCode) : (s.refuse c).engPhase = s.engPhase := rfl
@[simp] theorem refuse_unitsLeft (c : CompletionCode) : (s.refuse c).unitsLeft = s.unitsLeft := rfl
@[simp] theorem refuse_entLeft (c : CompletionCode) : (s.refuse c).entLeft = s.entLeft := rfl
@[simp] theorem refuse_dir (c : CompletionCode) : (s.refuse c).dir = s.dir := rfl
@[simp] theorem refuse_stepDelay (c : CompletionCode) : (s.refuse c).stepDelay = s.stepDelay := rfl
@[simp] theorem refuse_waiting (c : CompletionCode) : (s.refuse c).waiting = s.waiting := rfl
@[simp] theorem refuse_dlyCnt (c : CompletionCode) : (s.refuse c).dlyCnt = s.dlyCnt := rfl
@[simp] theorem refuse_pos (c : CompletionCode) : (s.refuse c).pos = s.pos := rfl
@[simp] theorem refuse_seqIdx (c : CompletionCode) : (s.refuse c).seqIdx = s.seqIdx := rfl
@[simp] theorem refuse_coil (c : CompletionCode) : (s.refuse c).coil = s.coil := rfl
@[simp] theorem refuse_calValid (c : CompletionCode) : (s.refuse c).calValid = s.calValid := rfl
@[simp] theorem refuse_resValid (c : CompletionCode) : (s.refuse c).resValid = s.resValid := rfl
@[simp] theorem refuse_err (c : CompletionCode) : (s.refuse c).err = c := rfl
@[simp] theorem refuse_done (c : CompletionCode) : (s.refuse c).done = true := rfl
@[simp] theorem refuse_flight (c : CompletionCode) : (s.refuse c).flight = s.flight := rfl
@[simp] theorem refuse_inputs (c : CompletionCode) : (s.refuse c).inputs = s.inputs := rfl
@[simp] theorem refuse_freeCount (c : CompletionCode) : (s.refuse c).freeCount = s.freeCount := rfl

/-! ### startWait -/

@[simp] theorem startWait_params (n : BitVec 32) : (s.startWait n).params = s.params := rfl
@[simp] theorem startWait_cal (n : BitVec 32) : (s.startWait n).cal = s.cal := rfl
@[simp] theorem startWait_adcP (n : BitVec 32) : (s.startWait n).adcP = s.adcP := rfl
@[simp] theorem startWait_adcT (n : BitVec 32) : (s.startWait n).adcT = s.adcT := rfl
@[simp] theorem startWait_adcH (n : BitVec 32) : (s.startWait n).adcH = s.adcH := rfl
@[simp] theorem startWait_tFine (n : BitVec 32) : (s.startWait n).tFine = s.tFine := rfl
@[simp] theorem startWait_tRes (n : BitVec 32) : (s.startWait n).tRes = s.tRes := rfl
@[simp] theorem startWait_pRes (n : BitVec 32) : (s.startWait n).pRes = s.pRes := rfl
@[simp] theorem startWait_hRes (n : BitVec 32) : (s.startWait n).hRes = s.hRes := rfl
@[simp] theorem startWait_v1 (n : BitVec 32) : (s.startWait n).v1 = s.v1 := rfl
@[simp] theorem startWait_v2 (n : BitVec 32) : (s.startWait n).v2 = s.v2 := rfl
@[simp] theorem startWait_acc (n : BitVec 32) : (s.startWait n).acc = s.acc := rfl
@[simp] theorem startWait_tW (n : BitVec 32) : (s.startWait n).tW = s.tW := rfl
@[simp] theorem startWait_pW (n : BitVec 32) : (s.startWait n).pW = s.pW := rfl
@[simp] theorem startWait_hW (n : BitVec 32) : (s.startWait n).hW = s.hW := rfl
@[simp] theorem startWait_busy (n : BitVec 32) : (s.startWait n).busy = s.busy := rfl
@[simp] theorem startWait_curOp (n : BitVec 32) : (s.startWait n).curOp = s.curOp := rfl
@[simp] theorem startWait_mstate (n : BitVec 32) : (s.startWait n).mstate = s.mstate := rfl
@[simp] theorem startWait_calIdx (n : BitVec 32) : (s.startWait n).calIdx = s.calIdx := rfl
@[simp] theorem startWait_rdIdx (n : BitVec 32) : (s.startWait n).rdIdx = s.rdIdx := rfl
@[simp] theorem startWait_engStep (n : BitVec 32) : (s.startWait n).engStep = s.engStep := rfl
@[simp] theorem startWait_engPhase (n : BitVec 32) : (s.startWait n).engPhase = s.engPhase := rfl
@[simp] theorem startWait_unitsLeft (n : BitVec 32) : (s.startWait n).unitsLeft = s.unitsLeft := rfl
@[simp] theorem startWait_entLeft (n : BitVec 32) : (s.startWait n).entLeft = s.entLeft := rfl
@[simp] theorem startWait_dir (n : BitVec 32) : (s.startWait n).dir = s.dir := rfl
@[simp] theorem startWait_stepDelay (n : BitVec 32) : (s.startWait n).stepDelay = s.stepDelay := rfl
@[simp] theorem startWait_waiting (n : BitVec 32) : (s.startWait n).waiting = true := rfl
@[simp] theorem startWait_dlyCnt (n : BitVec 32) : (s.startWait n).dlyCnt = n := rfl
@[simp] theorem startWait_pos (n : BitVec 32) : (s.startWait n).pos = s.pos := rfl
@[simp] theorem startWait_seqIdx (n : BitVec 32) : (s.startWait n).seqIdx = s.seqIdx := rfl
@[simp] theorem startWait_coil (n : BitVec 32) : (s.startWait n).coil = s.coil := rfl
@[simp] theorem startWait_calValid (n : BitVec 32) : (s.startWait n).calValid = s.calValid := rfl
@[simp] theorem startWait_resValid (n : BitVec 32) : (s.startWait n).resValid = s.resValid := rfl
@[simp] theorem startWait_err (n : BitVec 32) : (s.startWait n).err = s.err := rfl
@[simp] theorem startWait_done (n : BitVec 32) : (s.startWait n).done = s.done := rfl
@[simp] theorem startWait_flight (n : BitVec 32) : (s.startWait n).flight = s.flight := rfl
@[simp] theorem startWait_inputs (n : BitVec 32) : (s.startWait n).inputs = s.inputs := rfl
@[simp] theorem startWait_freeCount (n : BitVec 32) : (s.startWait n).freeCount = s.freeCount := rfl

/-! ### issue -/

@[simp] theorem issue_params (t : Transaction) : (s.issue t).params = s.params := rfl
@[simp] theorem issue_cal (t : Transaction) : (s.issue t).cal = s.cal := rfl
@[simp] theorem issue_adcP (t : Transaction) : (s.issue t).adcP = s.adcP := rfl
@[simp] theorem issue_adcT (t : Transaction) : (s.issue t).adcT = s.adcT := rfl
@[simp] theorem issue_adcH (t : Transaction) : (s.issue t).adcH = s.adcH := rfl
@[simp] theorem issue_tFine (t : Transaction) : (s.issue t).tFine = s.tFine := rfl
@[simp] theorem issue_tRes (t : Transaction) : (s.issue t).tRes = s.tRes := rfl
@[simp] theorem issue_pRes (t : Transaction) : (s.issue t).pRes = s.pRes := rfl
@[simp] theorem issue_hRes (t : Transaction) : (s.issue t).hRes = s.hRes := rfl
@[simp] theorem issue_v1 (t : Transaction) : (s.issue t).v1 = s.v1 := rfl
@[simp] theorem issue_v2 (t : Transaction) : (s.issue t).v2 = s.v2 := rfl
@[simp] theorem issue_acc (t : Transaction) : (s.issue t).acc = s.acc := rfl
@[simp] theorem issue_tW (t : Transaction) : (s.issue t).tW = s.tW := rfl
@[simp] theorem issue_pW (t : Transaction) : (s.issue t).pW = s.pW := rfl
@[simp] theorem issue_hW (t : Transaction) : (s.issue t).hW = s.hW := rfl
@[simp] theorem issue_busy (t : Transaction) : (s.issue t).busy = s.busy := rfl
@[simp] theorem issue_curOp (t : Transaction) : (s.issue t).curOp = s.curOp := rfl
@[simp] theorem issue_mstate (t : Transaction) : (s.issue t).mstate = s.mstate := rfl
@[simp] theorem issue_calIdx (t : Transaction) : (s.issue t).calIdx = s.calIdx := rfl
@[simp] theorem issue_rdIdx (t : Transaction) : (s.issue t).rdIdx = s.rdIdx := rfl
@[simp] theorem issue_engStep (t : Transaction) : (s.issue t).engStep = s.engStep := rfl
@[simp] theorem issue_engPhase (t : Transaction) : (s.issue t).engPhase = s.engPhase := rfl
@[simp] theorem issue_unitsLeft (t : Transaction) : (s.issue t).unitsLeft = s.unitsLeft := rfl
@[simp] theorem issue_entLeft (t : Transaction) : (s.issue t).entLeft = s.entLeft := rfl
@[simp] theorem issue_dir (t : Transaction) : (s.issue t).dir = s.dir := rfl
@[simp] theorem issue_stepDelay (t : Transaction) : (s.issue t).stepDelay = s.stepDelay := rfl
@[simp] theorem issue_waiting (t : Transaction) : (s.issue t).waiting = s.waiting := rfl
@[simp] theorem issue_dlyCnt (t : Transaction) : (s.issue t).dlyCnt = s.dlyCnt := rfl
@[simp] theorem issue_pos (t : Transaction) : (s.issue t).pos = s.pos := rfl
@[simp] theorem issue_seqIdx (t : Transaction) : (s.issue t).seqIdx = s.seqIdx := rfl
@[simp] theorem issue_coil (t : Transaction) : (s.issue t).coil = s.coil := rfl
@[simp] theorem issue_calValid (t : Transaction) : (s.issue t).calValid = s.calValid := rfl
@[simp] theorem issue_resValid (t : Transaction) : (s.issue t).resValid = s.resValid := rfl
@[simp] theorem issue_err (t : Transaction) : (s.issue t).err = s.err := rfl
@[simp] theorem issue_done (t : Transaction) : (s.issue t).done = s.done := rfl
@[simp] theorem issue_flight (t : Transaction) : (s.issue t).flight = some t := rfl
@[simp] theorem issue_inputs (t : Transaction) : (s.issue t).inputs = s.inputs := rfl
@[simp] theorem issue_freeCount (t : Transaction) : (s.issue t).freeCount = s.freeCount := rfl

/-! ### endTransaction -/

@[simp] theorem endTransaction_params : (s.endTransaction).params = s.params := rfl
@[simp] theorem endTransaction_cal : (s.endTransaction).cal = s.cal := rfl
@[simp] theorem endTransaction_adcP : (s.endTransaction).adcP = s.adcP := rfl
@[simp] theorem endTransaction_adcT : (s.endTransaction).adcT = s.adcT := rfl
@[simp] theorem endTransaction_adcH : (s.endTransaction).adcH = s.adcH := rfl
@[simp] theorem endTransaction_tFine : (s.endTransaction).tFine = s.tFine := rfl
@[simp] theorem endTransaction_tRes : (s.endTransaction).tRes = s.tRes := rfl
@[simp] theorem endTransaction_pRes : (s.endTransaction).pRes = s.pRes := rfl
@[simp] theorem endTransaction_hRes : (s.endTransaction).hRes = s.hRes := rfl
@[simp] theorem endTransaction_v1 : (s.endTransaction).v1 = s.v1 := rfl
@[simp] theorem endTransaction_v2 : (s.endTransaction).v2 = s.v2 := rfl
@[simp] theorem endTransaction_acc : (s.endTransaction).acc = s.acc := rfl
@[simp] theorem endTransaction_tW : (s.endTransaction).tW = s.tW := rfl
@[simp] theorem endTransaction_pW : (s.endTransaction).pW = s.pW := rfl
@[simp] theorem endTransaction_hW : (s.endTransaction).hW = s.hW := rfl
@[simp] theorem endTransaction_busy : (s.endTransaction).busy = s.busy := rfl
@[simp] theorem endTransaction_curOp : (s.endTransaction).curOp = s.curOp := rfl
@[simp] theorem endTransaction_mstate : (s.endTransaction).mstate = s.mstate := rfl
@[simp] theorem endTransaction_calIdx : (s.endTransaction).calIdx = s.calIdx := rfl
@[simp] theorem endTransaction_rdIdx : (s.endTransaction).rdIdx = s.rdIdx := rfl
@[simp] theorem endTransaction_engStep : (s.endTransaction).engStep = s.engStep := rfl
@[simp] theorem endTransaction_engPhase : (s.endTransaction).engPhase = s.engPhase := rfl
@[simp] theorem endTransaction_unitsLeft : (s.endTransaction).unitsLeft = s.unitsLeft := rfl
@[simp] theorem endTransaction_entLeft : (s.endTransaction).entLeft = s.entLeft := rfl
@[simp] theorem endTransaction_dir : (s.endTransaction).dir = s.dir := rfl
@[simp] theorem endTransaction_stepDelay : (s.endTransaction).stepDelay = s.stepDelay := rfl
@[simp] theorem endTransaction_waiting : (s.endTransaction).waiting = s.waiting := rfl
@[simp] theorem endTransaction_dlyCnt : (s.endTransaction).dlyCnt = s.dlyCnt := rfl
@[simp] theorem endTransaction_pos : (s.endTransaction).pos = s.pos := rfl
@[simp] theorem endTransaction_seqIdx : (s.endTransaction).seqIdx = s.seqIdx := rfl
@[simp] theorem endTransaction_coil : (s.endTransaction).coil = s.coil := rfl
@[simp] theorem endTransaction_calValid : (s.endTransaction).calValid = s.calValid := rfl
@[simp] theorem endTransaction_resValid : (s.endTransaction).resValid = s.resValid := rfl
@[simp] theorem endTransaction_err : (s.endTransaction).err = s.err := rfl
@[simp] theorem endTransaction_done : (s.endTransaction).done = s.done := rfl
@[simp] theorem endTransaction_flight : (s.endTransaction).flight = none := rfl
@[simp] theorem endTransaction_inputs : (s.endTransaction).inputs = s.inputs := rfl
@[simp] theorem endTransaction_freeCount : (s.endTransaction).freeCount = s.freeCount := rfl

/-! ### advanceEngine -/

@[simp] theorem advanceEngine_params : (s.advanceEngine).params = s.params := rfl
@[simp] theorem advanceEngine_cal : (s.advanceEngine).cal = s.cal := rfl
@[simp] theorem advanceEngine_adcP : (s.advanceEngine).adcP = s.adcP := rfl
@[simp] theorem advanceEngine_adcT : (s.advanceEngine).adcT = s.adcT := rfl
@[simp] theorem advanceEngine_adcH : (s.advanceEngine).adcH = s.adcH := rfl
@[simp] theorem advanceEngine_tFine : (s.advanceEngine).tFine = s.tFine := rfl
@[simp] theorem advanceEngine_tRes : (s.advanceEngine).tRes = s.tRes := rfl
@[simp] theorem advanceEngine_pRes : (s.advanceEngine).pRes = s.pRes := rfl
@[simp] theorem advanceEngine_hRes : (s.advanceEngine).hRes = s.hRes := rfl
@[simp] theorem advanceEngine_v1 : (s.advanceEngine).v1 = s.v1 := rfl
@[simp] theorem advanceEngine_v2 : (s.advanceEngine).v2 = s.v2 := rfl
@[simp] theorem advanceEngine_acc : (s.advanceEngine).acc = s.acc := rfl
@[simp] theorem advanceEngine_tW : (s.advanceEngine).tW = s.tW := rfl
@[simp] theorem advanceEngine_pW : (s.advanceEngine).pW = s.pW := rfl
@[simp] theorem advanceEngine_hW : (s.advanceEngine).hW = s.hW := rfl
@[simp] theorem advanceEngine_busy : (s.advanceEngine).busy = s.busy := rfl
@[simp] theorem advanceEngine_curOp : (s.advanceEngine).curOp = s.curOp := rfl
@[simp] theorem advanceEngine_mstate : (s.advanceEngine).mstate = s.mstate := rfl
@[simp] theorem advanceEngine_calIdx : (s.advanceEngine).calIdx = s.calIdx := rfl
@[simp] theorem advanceEngine_rdIdx : (s.advanceEngine).rdIdx = s.rdIdx := rfl
@[simp] theorem advanceEngine_engStep : (s.advanceEngine).engStep = s.engStep + 1 := rfl
@[simp] theorem advanceEngine_engPhase : (s.advanceEngine).engPhase = s.engPhase := rfl
@[simp] theorem advanceEngine_unitsLeft : (s.advanceEngine).unitsLeft = s.unitsLeft := rfl
@[simp] theorem advanceEngine_entLeft : (s.advanceEngine).entLeft = s.entLeft := rfl
@[simp] theorem advanceEngine_dir : (s.advanceEngine).dir = s.dir := rfl
@[simp] theorem advanceEngine_stepDelay : (s.advanceEngine).stepDelay = s.stepDelay := rfl
@[simp] theorem advanceEngine_waiting : (s.advanceEngine).waiting = s.waiting := rfl
@[simp] theorem advanceEngine_dlyCnt : (s.advanceEngine).dlyCnt = s.dlyCnt := rfl
@[simp] theorem advanceEngine_pos : (s.advanceEngine).pos = s.pos := rfl
@[simp] theorem advanceEngine_seqIdx : (s.advanceEngine).seqIdx = s.seqIdx := rfl
@[simp] theorem advanceEngine_coil : (s.advanceEngine).coil = s.coil := rfl
@[simp] theorem advanceEngine_calValid : (s.advanceEngine).calValid = s.calValid := rfl
@[simp] theorem advanceEngine_resValid : (s.advanceEngine).resValid = s.resValid := rfl
@[simp] theorem advanceEngine_err : (s.advanceEngine).err = s.err := rfl
@[simp] theorem advanceEngine_done : (s.advanceEngine).done = s.done := rfl
@[simp] theorem advanceEngine_flight : (s.advanceEngine).flight = s.flight := rfl
@[simp] theorem advanceEngine_inputs : (s.advanceEngine).inputs = s.inputs := rfl
@[simp] theorem advanceEngine_freeCount : (s.advanceEngine).freeCount = s.freeCount := rfl

/-! ### forgetWork -/

@[simp] theorem forgetWork_params : (s.forgetWork).params = s.params := rfl
@[simp] theorem forgetWork_cal : (s.forgetWork).cal = s.cal := rfl
@[simp] theorem forgetWork_adcP : (s.forgetWork).adcP = s.adcP := rfl
@[simp] theorem forgetWork_adcT : (s.forgetWork).adcT = s.adcT := rfl
@[simp] theorem forgetWork_adcH : (s.forgetWork).adcH = s.adcH := rfl
@[simp] theorem forgetWork_tFine : (s.forgetWork).tFine = s.tFine := rfl
@[simp] theorem forgetWork_tRes : (s.forgetWork).tRes = s.tRes := rfl
@[simp] theorem forgetWork_pRes : (s.forgetWork).pRes = s.pRes := rfl
@[simp] theorem forgetWork_hRes : (s.forgetWork).hRes = s.hRes := rfl
@[simp] theorem forgetWork_v1 : (s.forgetWork).v1 = s.free 0 := rfl
@[simp] theorem forgetWork_v2 : (s.forgetWork).v2 = s.free 1 := rfl
@[simp] theorem forgetWork_acc : (s.forgetWork).acc = s.free 2 := rfl
@[simp] theorem forgetWork_tW : (s.forgetWork).tW = BitVec.ofInt 32 (s.free 3) := rfl
@[simp] theorem forgetWork_pW : (s.forgetWork).pW = BitVec.ofInt 32 (s.free 4) := rfl
@[simp] theorem forgetWork_hW : (s.forgetWork).hW = BitVec.ofInt 32 (s.free 5) := rfl
@[simp] theorem forgetWork_busy : (s.forgetWork).busy = s.busy := rfl
@[simp] theorem forgetWork_curOp : (s.forgetWork).curOp = s.curOp := rfl
@[simp] theorem forgetWork_mstate : (s.forgetWork).mstate = s.mstate := rfl
@[simp] theorem forgetWork_calIdx : (s.forgetWork).calIdx = s.calIdx := rfl
@[simp] theorem forgetWork_rdIdx : (s.forgetWork).rdIdx = s.rdIdx := rfl
@[simp] theorem forgetWork_engStep : (s.forgetWork).engStep = s.engStep := rfl
@[simp] theorem forgetWork_engPhase : (s.forgetWork).engPhase = s.engPhase := rfl
@[simp] theorem forgetWork_unitsLeft : (s.forgetWork).unitsLeft = s.unitsLeft := rfl
@[simp] theorem forgetWork_entLeft : (s.forgetWork).entLeft = s.entLeft := rfl
@[simp] theorem forgetWork_dir : (s.forgetWork).dir = s.dir := rfl
@[simp] theorem forgetWork_stepDelay : (s.forgetWork).stepDelay = s.stepDelay := rfl
@[simp] theorem forgetWork_waiting : (s.forgetWork).waiting = s.waiting := rfl
@[simp] theorem forgetWork_dlyCnt : (s.forgetWork).dlyCnt = s.dlyCnt := rfl
@[simp] theorem forgetWork_pos : (s.forgetWork).pos = s.pos := rfl
@[simp] theorem forgetWork_seqIdx : (s.forgetWork).seqIdx = s.seqIdx := rfl
@[simp] theorem forgetWork_coil : (s.forgetWork).coil = s.coil := rfl
@[simp] theorem forgetWork_calValid : (s.forgetWork).calValid = s.calValid := rfl
@[simp] theorem forgetWork_resValid : (s.forgetWork).resValid = s.resValid := rfl
@[simp] theorem forgetWork_err : (s.forgetWork).err = s.err := rfl
@[simp] theorem forgetWork_done : (s.forgetWork).done = s.done := rfl
@[simp] theorem forgetWork_flight : (s.forgetWork).flight = s.flight := rfl
@[simp] theorem forgetWork_inputs : (s.forgetWork).inputs = s.inputs := rfl
@[simp] theorem forgetWork_freeCount : (s.forgetWork).freeCount = s.freeCount + 6 := rfl

/-! ### resetEdge: the registers to which R47 gives a value -/

@[simp] theorem resetEdge_params : s.resetEdge.params = s.params := rfl
@[simp] theorem resetEdge_busy : s.resetEdge.busy = false := rfl
@[simp] theorem resetEdge_curOp : s.resetEdge.curOp = .loadCal := rfl
@[simp] theorem resetEdge_mstate : s.resetEdge.mstate = .idle := rfl
@[simp] theorem resetEdge_calIdx : s.resetEdge.calIdx = 0 := rfl
@[simp] theorem resetEdge_rdIdx : s.resetEdge.rdIdx = .pressure := rfl
@[simp] theorem resetEdge_engStep : s.resetEdge.engStep = 0 := rfl
@[simp] theorem resetEdge_engPhase : s.resetEdge.engPhase = .off := rfl
@[simp] theorem resetEdge_unitsLeft : s.resetEdge.unitsLeft = 0 := rfl
@[simp] theorem resetEdge_entLeft : s.resetEdge.entLeft = 0 := rfl
@[simp] theorem resetEdge_dir : s.resetEdge.dir = .backward := rfl
@[simp] theorem resetEdge_stepDelay : s.resetEdge.stepDelay = 0 := rfl
@[simp] theorem resetEdge_waiting : s.resetEdge.waiting = false := rfl
@[simp] theorem resetEdge_dlyCnt : s.resetEdge.dlyCnt = 0 := rfl
@[simp] theorem resetEdge_pos : s.resetEdge.pos = 0 := rfl
@[simp] theorem resetEdge_seqIdx : s.resetEdge.seqIdx = 0 := rfl
@[simp] theorem resetEdge_coil : s.resetEdge.coil = 0 := rfl
@[simp] theorem resetEdge_calValid : s.resetEdge.calValid = false := rfl
@[simp] theorem resetEdge_resValid : s.resetEdge.resValid = false := rfl
@[simp] theorem resetEdge_err : s.resetEdge.err = .ok := rfl
@[simp] theorem resetEdge_done : s.resetEdge.done = false := rfl
@[simp] theorem resetEdge_flight : s.resetEdge.flight = none := rfl
@[simp] theorem resetEdge_inputs : s.resetEdge.inputs = s.inputs := rfl
@[simp] theorem resetEdge_freeCount : s.resetEdge.freeCount = s.freeCount + 31 := rfl

/-! ### The views that only some fields feed -/

@[simp] theorem clockEdge_position : s.clockEdge.position = s.position := rfl
@[simp] theorem complete_position (c : CompletionCode) : (s.complete c).position = s.position := rfl
@[simp] theorem refuse_position (c : CompletionCode) : (s.refuse c).position = s.position := rfl

end Sys2Proof.Machine.State
end

