-- ==== Sys2Proof/Laws/Ops.lean ====
section
/-! SUPPORT. Laws/Ops.lean: one lemma for each shared operation that says once everything it can do. -/

namespace Sys2Proof.Machine

variable {s t : State}

/-! ### Taking a command -/

/-- What `takeCommand` can do: not taken while busy, refused, or started. -/
theorem takeCommand_cases (s : State) (r : Option CompletionCode) (t : State) :
    (s.busy = true ∧ takeCommand s r t = .next s) ∨
    (∃ c, s.busy = false ∧ r = some c ∧ takeCommand s r t = .next (s.refuse c)) ∨
    (s.busy = false ∧ r = none ∧ takeCommand s r t = .next t) := by
  unfold takeCommand
  cases hb : s.busy with
  | true => exact .inl ⟨rfl, rfl⟩
  | false =>
    cases r with
    | some c => exact .inr (.inl ⟨c, rfl, rfl, rfl⟩)
    | none => exact .inr (.inr ⟨rfl, rfl, rfl⟩)

theorem takeCommand_busy (h : s.busy = true) (r : Option CompletionCode) (t : State) :
    takeCommand s r t = .next s := by simp [takeCommand, h]

theorem takeCommand_refused (h : s.busy = false) (c : CompletionCode) (t : State) :
    takeCommand s (some c) t = .next (s.refuse c) := by simp [takeCommand, h]

theorem takeCommand_started (h : s.busy = false) (t : State) : takeCommand s none t = .next t := by
  simp [takeCommand, h]

/-! ### BusError and waits, by the command in progress -/

theorem raiseBusError_loadCal (h : s.curOp = .loadCal) :
    s.raiseBusError = { s with calIdx := 0 }.complete .busError := by simp [State.raiseBusError, h]

theorem raiseBusError_measure (h : s.curOp = .measure) :
    s.raiseBusError = { s with mstate := .idle, rdIdx := .pressure }.complete .busError := by
  simp [State.raiseBusError, h]

theorem endWait_measure (h : s.curOp = .measure) : s.endWait = { s with waiting := false } := by
  simp [State.endWait, h]

theorem endWait_motor (h : s.curOp = .rotateBy ∨ s.curOp = .rotateTo) :
    s.endWait = { s with waiting := false, entLeft := s.entLeft - 1 } := by
  rcases h with h | h <;> simp [State.endWait, h]

/-- What an edge inside a wait can do: end it, count a tick, or nothing. -/
theorem waitEdge_cases (s : State) (tick : Bool) :
    (s.dlyCnt = 0 ∧ s.waitEdge tick = s.endWait) ∨
    (s.dlyCnt ≠ 0 ∧ tick = true ∧ s.waitEdge tick = { s with dlyCnt := s.dlyCnt - 1 }) ∨
    (s.dlyCnt ≠ 0 ∧ tick = false ∧ s.waitEdge tick = s) := by
  unfold State.waitEdge
  by_cases h : s.dlyCnt = 0
  · exact .inl ⟨h, if_pos h⟩
  · cases tick with
    | true => exact .inr (.inl ⟨h, rfl, by rw [if_neg h, if_pos rfl]⟩)
    | false => exact .inr (.inr ⟨h, rfl, by rw [if_neg h, if_neg Bool.false_ne_true]⟩)

/-! ### Commands, by what they answer -/

/-- What an answered calibration read can do: the next row, or the end of LOAD_CAL. -/
theorem calAnswered_cases (s : State) (r : BitVec 24) :
    (s.calIdx = 16 ∧ calAnswered s r =
      { s with cal := writeCalRow s.calIdx r s.cal, calValid := true, calIdx := 0 }.complete .ok) ∨
    (s.calIdx ≠ 16 ∧ calAnswered s r =
      { s with cal := writeCalRow s.calIdx r s.cal, calIdx := s.calIdx + 1 }) := by
  unfold calAnswered
  by_cases h : s.calIdx = 16
  · exact .inl ⟨h, by simp only [if_pos h]⟩
  · exact .inr ⟨h, by simp only [if_neg h]⟩

/-- What an answered status read can do: another wait, or Ready. -/
theorem statusAnswered_cases (s : State) (r : BitVec 24) :
    (measuring r = true ∧ statusAnswered s r = s.startWait s.params.pollIntervalUs) ∨
    (measuring r = false ∧ statusAnswered s r = { s with mstate := .ready }) := by
  unfold statusAnswered
  cases h : measuring r with
  | true => exact .inl ⟨rfl, rfl⟩
  | false => exact .inr ⟨rfl, rfl⟩

/-- What a motor command can do next: complete, end a unit, or activate an entry. -/
theorem motorAdvance_cases (s : State) :
    (s.unitsLeft = 0 ∧ motorAdvance s = s.complete .ok) ∨
    (s.unitsLeft ≠ 0 ∧ s.entLeft = 0 ∧ motorAdvance s = endUnit s) ∨
    (s.unitsLeft ≠ 0 ∧ s.entLeft ≠ 0 ∧ motorAdvance s = activate s) := by
  unfold motorAdvance
  by_cases hu : s.unitsLeft = 0
  · exact .inl ⟨hu, if_pos hu⟩
  · by_cases he : s.entLeft = 0
    · exact .inr (.inl ⟨hu, he, by rw [if_neg hu, if_pos he]⟩)
    · exact .inr (.inr ⟨hu, he, by rw [if_neg hu, if_neg he]⟩)

end Sys2Proof.Machine
end

