-- ==== Sys2Proof/Laws/Edge.lean ====
section
/-! SUPPORT. Laws/Edge.lean: what each instruction and each clock edge can answer, said once: the case lemmas that later
proofs cite instead of unfolding `step`. -/

namespace Sys2Proof.Machine

variable {s s' : State}

/-! ### Every instruction answers a next state -/

/-- A command answers a next state: itself while busy, a refusal, or its start. -/
theorem takeCommand_next (s : State) (r : Option CompletionCode) (t : State) :
    ∃ s', takeCommand s r t = .next s' := by
  rcases takeCommand_cases s r t with ⟨-, h⟩ | ⟨c, -, -, h⟩ | ⟨-, -, h⟩ <;> exact ⟨_, h⟩

theorem execE10_cases (s : State) :
    (s.v1 = 0 ∧ execE10 s = .next { s with pW := 0, engStep := 16 }) ∨
    (s.v1 ≠ 0 ∧ execE10 s = .next { s with acc := 1048576 - s.rawP, engStep := 11 }) := by
  unfold execE10
  by_cases h : s.v1 = 0
  · exact .inl ⟨h, if_pos h⟩
  · exact .inr ⟨h, if_neg h⟩

/-- No instruction faults or is refused by the model. -/
theorem exec_next (i : Instr) (s : State) : ∃ s', exec i s = .next s' := by
  cases i with
  | loadCal => exact takeCommand_next _ _ _
  | measure => exact takeCommand_next _ _ _
  | rotateBy => exact takeCommand_next s none _
  | rotateTo => exact takeCommand_next s none _
  | nudgeCw => exact takeCommand_next s none _
  | nudgeCcw => exact takeCommand_next s none _
  | e10 => rcases execE10_cases s with ⟨-, h⟩ | ⟨-, h⟩ <;> exact ⟨_, h⟩
  | _ => exact ⟨_, rfl⟩

/-! ### The sequencer -/

/-- What `sequenceAdvance` can do: issue the transaction that is due, or advance inside the block. -/
theorem sequenceAdvance_cases (s : State) :
    (∃ t, nextRequest s = some t ∧ sequenceAdvance s = s.issue t) ∨
    (nextRequest s = none ∧ sequenceAdvance s = internalAdvance s) := by
  unfold sequenceAdvance
  cases h : nextRequest s with
  | some t => exact .inl ⟨t, rfl, rfl⟩
  | none => exact .inr ⟨rfl, rfl⟩

/-- What the sequencer can do at an edge: an edge of the wait, the answer to the transaction in flight, nothing while
there is no answer, or an advance. -/
theorem sequenceEdge_cases (s : State) (inp : PortIn) :
    (s.waiting = true ∧ sequenceEdge s inp = s.waitEdge inp.tickUs) ∨
    (s.waiting = false ∧ s.flight ≠ none ∧ inp.busRespValid = true ∧
      sequenceEdge s inp = receive s inp.busRespErr inp.busRespRdata) ∨
    (s.waiting = false ∧ s.flight ≠ none ∧ inp.busRespValid = false ∧ sequenceEdge s inp = s) ∨
    (s.waiting = false ∧ s.flight = none ∧ sequenceEdge s inp = sequenceAdvance s) := by
  unfold sequenceEdge
  cases hw : s.waiting with
  | true => exact .inl ⟨rfl, rfl⟩
  | false =>
    cases hf : s.flight with
    | none => exact .inr (.inr (.inr ⟨rfl, rfl, rfl⟩))
    | some t =>
      cases hr : inp.busRespValid with
      | true => exact .inr (.inl ⟨rfl, by simp, rfl, rfl⟩)
      | false => exact .inr (.inr (.inl ⟨rfl, by simp, rfl, rfl⟩))

/-! ### The parts of a step -/

theorem step_rst (h : s.input.rst = true) : step s = .next s.clockEdge.resetEdge := by
  simp [step, onEdge, h]

theorem step_idle (hr : s.input.rst = false) (hb : s.busy = false) : step s = idleEdge s.clockEdge s.input := by
  simp [step, onEdge, hr, hb]

theorem step_busy (hr : s.input.rst = false) (hb : s.busy = true) : step s = busyEdge s.clockEdge s.input := by
  simp [step, onEdge, hr, hb]

theorem idleEdge_none {inp : PortIn} (h : inp.cmdValid = false) : idleEdge s inp = .next s := by
  simp [idleEdge, h]

theorem idleEdge_illegal {inp : PortIn} {e : DecodeError} (h : inp.cmdValid = true)
    (hd : decode (.command inp.cmd) = .error e) : idleEdge s inp = .next (s.refuse .illegalCmd) := by
  simp [idleEdge, h, hd]

theorem idleEdge_legal {inp : PortIn} {i : Instr} (h : inp.cmdValid = true)
    (hd : decode (.command inp.cmd) = .ok i) : idleEdge s inp = exec i s := by
  simp [idleEdge, h, hd]

theorem busyEdge_off {inp : PortIn} (h : s.engPhase = .off) : busyEdge s inp = .next (sequenceEdge s inp) := by
  simp [busyEdge, h]

theorem busyEdge_done {inp : PortIn} (h : s.engPhase = .done) : busyEdge s inp = .next (finishMeasure s) := by
  simp [busyEdge, h]

theorem busyEdge_running {inp : PortIn} {i : Instr} (h : s.engPhase = .running)
    (hd : decode (.microStep s.engStep) = .ok i) : busyEdge s inp = exec i s := by
  simp [busyEdge, h, hd]

theorem busyEdge_stuck {inp : PortIn} {e : DecodeError} (h : s.engPhase = .running)
    (hd : decode (.microStep s.engStep) = .error e) : busyEdge s inp = .fault .noMicroStep := by
  simp [busyEdge, h, hd]

/-! ### The step -/

/-- Everything a step can do, with the condition of each case. -/
theorem step_cases (s : State) :
    (s.input.rst = true ∧ step s = .next s.clockEdge.resetEdge) ∨
    (s.input.rst = false ∧ s.busy = false ∧ s.input.cmdValid = false ∧ step s = .next s.clockEdge) ∨
    (s.input.rst = false ∧ s.busy = false ∧ s.input.cmdValid = true ∧
      ∃ e, decode (.command s.input.cmd) = .error e ∧ step s = .next (s.clockEdge.refuse .illegalCmd)) ∨
    (s.input.rst = false ∧ s.busy = false ∧ s.input.cmdValid = true ∧
      ∃ i, decode (.command s.input.cmd) = .ok i ∧ step s = exec i s.clockEdge) ∨
    (s.input.rst = false ∧ s.busy = true ∧ s.engPhase = .running ∧
      ∃ i, decode (.microStep s.engStep) = .ok i ∧ step s = exec i s.clockEdge) ∨
    (s.input.rst = false ∧ s.busy = true ∧ s.engPhase = .running ∧
      ∃ e, decode (.microStep s.engStep) = .error e ∧ step s = .fault .noMicroStep) ∨
    (s.input.rst = false ∧ s.busy = true ∧ s.engPhase = .done ∧ step s = .next (finishMeasure s.clockEdge)) ∨
    (s.input.rst = false ∧ s.busy = true ∧ s.engPhase = .off ∧
      step s = .next (sequenceEdge s.clockEdge s.input)) := by
  cases hr : s.input.rst with
  | true => exact .inl ⟨rfl, step_rst hr⟩
  | false =>
    right
    cases hb : s.busy with
    | false =>
      cases hc : s.input.cmdValid with
      | false => exact .inl ⟨rfl, rfl, rfl, (step_idle hr hb).trans (idleEdge_none hc)⟩
      | true =>
        right
        cases hd : decode (.command s.input.cmd) with
        | error e => exact .inl ⟨rfl, rfl, rfl, e, rfl, (step_idle hr hb).trans (idleEdge_illegal hc hd)⟩
        | ok i => exact .inr (.inl ⟨rfl, rfl, rfl, i, rfl, (step_idle hr hb).trans (idleEdge_legal hc hd)⟩)
    | true =>
      right; right; right
      cases hp : s.engPhase with
      | running =>
        cases hd : decode (.microStep s.engStep) with
        | ok i => exact .inl ⟨rfl, rfl, rfl, i, rfl, (step_busy hr hb).trans (busyEdge_running hp hd)⟩
        | error e => exact .inr (.inl ⟨rfl, rfl, rfl, e, rfl, (step_busy hr hb).trans (busyEdge_stuck hp hd)⟩)
      | done => exact .inr (.inr (.inl ⟨rfl, rfl, rfl, (step_busy hr hb).trans (busyEdge_done hp)⟩))
      | off => exact .inr (.inr (.inr ⟨rfl, rfl, rfl, (step_busy hr hb).trans (busyEdge_off hp)⟩))

/-- A micro-step number that is no micro-step is one above 22 (R103). -/
theorem decode_microStep_error {k : MicroStepCode} {e : DecodeError} (h : decode (.microStep k) = .error e) :
    22 < k.toNat := by
  have hk := decodeMicroStep_isSome k
  have h' : decodeMicroStep k = .error e := h
  rw [h'] at hk
  simpa [Except.toOption] using hk.symm

/-- The only stop of the machine: an engine that runs with a number that is no micro-step (log 17). -/
theorem step_next_or_stuck (s : State) :
    (∃ s', step s = .next s') ∨
    (s.input.rst = false ∧ s.busy = true ∧ s.engPhase = .running ∧ 22 < s.engStep.toNat ∧
      step s = .fault .noMicroStep) := by
  rcases step_cases s with ⟨-, h⟩ | ⟨-, -, -, h⟩ | ⟨-, -, -, e, -, h⟩ | ⟨-, -, -, i, -, h⟩ | ⟨-, -, -, i, -, h⟩ |
    ⟨hr, hb, hp, e, hd, h⟩ | ⟨-, -, -, h⟩ | ⟨-, -, -, h⟩
  · exact .inl ⟨_, h⟩
  · exact .inl ⟨_, h⟩
  · exact .inl ⟨_, h⟩
  · obtain ⟨t, ht⟩ := exec_next i s.clockEdge
    exact .inl ⟨t, h.trans ht⟩
  · obtain ⟨t, ht⟩ := exec_next i s.clockEdge
    exact .inl ⟨t, h.trans ht⟩
  · exact .inr ⟨hr, hb, hp, decode_microStep_error hd, h⟩
  · exact .inl ⟨_, h⟩
  · exact .inl ⟨_, h⟩

/-- No step is refused. -/
theorem step_not_refused (r : Refusal) : step s ≠ .refused r := by
  rcases step_next_or_stuck s with ⟨t, h⟩ | ⟨-, -, -, -, h⟩ <;> simp [h]

end Sys2Proof.Machine
end

