-- ==== Sys2Proof/Laws/Operands.lean ====
section
/-! SUPPORT. Laws/Operands.lean: the arithmetic of R14 in Lean's own terms, the values of the bus decoders (R67 to R69)
and the ranges of the operand registers (R20, R24). -/

namespace Sys2Proof.Machine

/-! ### Shifts, clamp, division -/

theorem asr_eq_div (v : Int) (n : Nat) : asr v n = v / 2 ^ n := rfl

theorem shl_eq_mul (v : Int) (n : Nat) : shl v n = v * 2 ^ n := rfl

/-- A floor shift is monotone. -/
theorem asr_le_asr {a b : Int} (h : a ≤ b) (n : Nat) : asr a n ≤ asr b n :=
  Int.ediv_le_ediv (by positivity) h

/-- A value in a range shifts into the shifted range. -/
theorem within_asr {lo hi v : Int} (h : within lo hi v) (n : Nat) : within (asr lo n) (asr hi n) (asr v n) :=
  ⟨asr_le_asr h.1 n, asr_le_asr h.2 n⟩

/-- A product of values bounded in magnitude is bounded by the product of the bounds. -/
theorem abs_mul_le {a b A B : Int} (ha : |a| ≤ A) (hb : |b| ≤ B) : |a * b| ≤ A * B := by
  rw [abs_mul]
  exact mul_le_mul ha hb (abs_nonneg b) ((abs_nonneg a).trans ha)

theorem tdiv_of_ne_zero (a : Int) {b : Int} (h : b ≠ 0) : tdiv a b = Int.tdiv a b := if_neg h

theorem clamp_within (v : Int) {lo hi : Int} (h : lo ≤ hi) : within lo hi (clamp v lo hi) :=
  ⟨le_max_left _ _, max_le h (min_le_right _ _)⟩

/-! ### Ranges of the operand registers -/

theorem unsigned_within {w : Nat} (x : BitVec w) : within 0 (2 ^ w - 1) (x.toNat : Int) := by
  have h := x.isLt
  constructor
  · exact Int.natCast_nonneg _
  · have : (x.toNat : Int) < 2 ^ w := by exact_mod_cast h
    omega

theorem signed16_within (x : BitVec 16) : within (-32768) 32767 x.toInt := by
  have h1 := BitVec.le_toInt (x := x)
  have h2 := BitVec.toInt_lt (x := x)
  constructor <;> norm_num at h1 h2 <;> omega

theorem signed12_within (x : BitVec 12) : within (-2048) 2047 x.toInt := by
  have h1 := BitVec.le_toInt (x := x)
  have h2 := BitVec.toInt_lt (x := x)
  constructor <;> norm_num at h1 h2 <;> omega

theorem signed8_within (x : BitVec 8) : within (-128) 127 x.toInt := by
  have h1 := BitVec.le_toInt (x := x)
  have h2 := BitVec.toInt_lt (x := x)
  constructor <;> norm_num at h1 h2 <;> omega

theorem signed32_within (x : BitVec 32) : within (-2147483648) 2147483647 x.toInt := by
  have h1 := BitVec.le_toInt (x := x)
  have h2 := BitVec.toInt_lt (x := x)
  constructor <;> norm_num at h1 h2 <;> omega

/-- A value in the range of a signed 32-bit register is kept by it (R142: E2 and E3 are lossless there). -/
theorem toInt_ofInt32 {v : Int} (h : within (-2147483648) 2147483647 v) : (BitVec.ofInt 32 v).toInt = v := by
  obtain ⟨h1, h2⟩ := h
  rw [BitVec.toInt_ofInt]
  exact Int.bmod_eq_of_le (by norm_num; omega) (by norm_num; omega)

/-! ### Motor operands -/

theorem halfTurn_nonneg (p : Params) : 0 ≤ halfTurn p := Int.natCast_nonneg _

theorem halfTurn_le {p : Params} (h : p.wf) : halfTurn p ≤ 32767 := by
  have h2 : p.res ≤ 65535 := h.2.1
  simp only [halfTurn]
  omega

theorem ceilDiv_eq_neg_floorDiv (a : Int) (b : Nat) : ceilDiv a b = -floorDiv (-a) b := rfl

end Sys2Proof.Machine
end

