-- ==== Sys2Proof/Laws/PerInstr.lean ====
section
/-! SUPPORT. Laws/PerInstr.lean: laws made one instruction at a time. EncodesToRow: the code of an instruction is
selected by its row of the opcode table (R94, R103, R112). -/

namespace Sys2Proof.Laws.EncodesToRow

/-- The encoder's code of `i` is selected by the match and mask of its row of spec/opcode_table.json. -/
def Statement (i : Instr) : Prop := i.opcodeRow.selects (encode i) = true

theorem loadCal : Statement .loadCal := by unfold Statement; decide

theorem measure : Statement .measure := by unfold Statement; decide

/-- The mask of ROTATE_BY: opcode and rsv. -/
theorem mask_rotateBy : (0xFFFE000000000000 : BitVec 64) =
    (0xFF : BitVec 8) ++ (0x7F : BitVec 7) ++ (0 : BitVec 1) ++ (0 : BitVec 16) ++ (0 : BitVec 32) := by decide

/-- The mask of ROTATE_TO: opcode, rsv and dirbit. -/
theorem mask_rotateTo : (0xFFFF000000000000 : BitVec 64) =
    (0xFF : BitVec 8) ++ (0x7F : BitVec 7) ++ (1 : BitVec 1) ++ (0 : BitVec 16) ++ (0 : BitVec 32) := by decide

/-- The mask of the nudges: all but the delay. -/
theorem mask_nudge : (0xFFFFFFFF00000000 : BitVec 64) =
    (0xFF : BitVec 8) ++ (0x7F : BitVec 7) ++ (1 : BitVec 1) ++ (0xFFFF : BitVec 16) ++ (0 : BitVec 32) := by decide

theorem rotateBy (cw : Bool) (angle delay : Nat) : Statement (.rotateBy cw angle delay) := by
  simp only [Statement, Instr.opcodeRow, encode, OpcodeRow.selects, mask_rotateBy, commandWord_and]
  simp

theorem rotateTo (target : Int) (delay : Nat) : Statement (.rotateTo target delay) := by
  simp only [Statement, Instr.opcodeRow, encode, OpcodeRow.selects, mask_rotateTo, commandWord_and]
  simp

theorem nudgeCw (delay : Nat) : Statement (.nudgeCw delay) := by
  simp only [Statement, Instr.opcodeRow, encode, OpcodeRow.selects, mask_nudge, commandWord_and]
  simp

theorem nudgeCcw (delay : Nat) : Statement (.nudgeCcw delay) := by
  simp only [Statement, Instr.opcodeRow, encode, OpcodeRow.selects, mask_nudge, commandWord_and]
  simp

theorem e0 : Statement .e0 := by unfold Statement; decide
theorem e1 : Statement .e1 := by unfold Statement; decide
theorem e2 : Statement .e2 := by unfold Statement; decide
theorem e3 : Statement .e3 := by unfold Statement; decide
theorem e4 : Statement .e4 := by unfold Statement; decide
theorem e5 : Statement .e5 := by unfold Statement; decide
theorem e6 : Statement .e6 := by unfold Statement; decide
theorem e7 : Statement .e7 := by unfold Statement; decide
theorem e8 : Statement .e8 := by unfold Statement; decide
theorem e9 : Statement .e9 := by unfold Statement; decide
theorem e10 : Statement .e10 := by unfold Statement; decide
theorem e11 : Statement .e11 := by unfold Statement; decide
theorem e12 : Statement .e12 := by unfold Statement; decide
theorem e13 : Statement .e13 := by unfold Statement; decide
theorem e14 : Statement .e14 := by unfold Statement; decide
theorem e15 : Statement .e15 := by unfold Statement; decide
theorem e16 : Statement .e16 := by unfold Statement; decide
theorem e17 : Statement .e17 := by unfold Statement; decide
theorem e18 : Statement .e18 := by unfold Statement; decide
theorem e19 : Statement .e19 := by unfold Statement; decide
theorem e20 : Statement .e20 := by unfold Statement; decide
theorem e21 : Statement .e21 := by unfold Statement; decide
theorem e22 : Statement .e22 := by unfold Statement; decide

end Sys2Proof.Laws.EncodesToRow
end

