-- ==== Sys2Proof/Tests/Slice0.lean ====
section
/-! SUPPORT. Tests/Slice0.lean: the smoke test of WellFormed, words written out from the spec's encodings, one-step tests
with the values of the spec's vectors (95_test_vectors.md), and witnesses for the hypotheses of the statements. -/

namespace Sys2Proof.Tests

open Sys2Proof.Machine

/-! ### WellFormed: each check accepts its last value and refuses the next -/

theorem test_angle_largest : WellFormed (.rotateBy true 65535 0) := by decide
theorem test_angle_too_large : ¬ WellFormed (.rotateBy true 65536 0) := by decide
theorem test_delay_largest : WellFormed (.rotateTo 0 4294967295) := by decide
theorem test_delay_too_large : ¬ WellFormed (.rotateTo 0 4294967296) := by decide
theorem test_delay_too_large_by : ¬ WellFormed (.rotateBy false 0 4294967296) := by decide
theorem test_delay_too_large_cw : ¬ WellFormed (.nudgeCw 4294967296) := by decide
theorem test_delay_too_large_ccw : ¬ WellFormed (.nudgeCcw 4294967296) := by decide
theorem test_target_ends : WellFormed (.rotateTo (-32768) 0) ∧ WellFormed (.rotateTo 32767 0) := by decide
theorem test_target_too_large : ¬ WellFormed (.rotateTo 32768 0) := by decide
theorem test_target_too_small : ¬ WellFormed (.rotateTo (-32769) 0) := by decide
theorem test_no_operands : WellFormed .loadCal ∧ WellFormed .measure ∧ WellFormed .e22 := by decide

/-! ### Decoding: words written out from R92, R95 to R98, R103, R112 and V40 -/

/-- R95: opcode 0x01 and 56 zero bits. -/
theorem test_decode_loadCal : decodeTableWord 64 0x0100000000000000 = some .loadCal := by decide
/-- R96 -/
theorem test_decode_measure : decodeTableWord 64 0x0200000000000000 = some .measure := by decide
/-- R97: 0001_0000, 0000000, cw = 0, A = 90, D = 2000. -/
theorem test_decode_rotateBy : decodeTableWord 64 0x1000005A000007D0 = some (.rotateBy false 90 2000) := by decide
/-- V40 -/
theorem test_decode_rotateBy_ones :
    decodeTableWord 64 0x1001FFFFFFFFFFFF = some (.rotateBy true 65535 4294967295) := by decide
/-- R98: TGT = −90 is 0xFFA6. -/
theorem test_decode_rotateTo : decodeTableWord 64 0x1100FFA6000007D0 = some (.rotateTo (-90) 2000) := by decide
/-- V40 -/
theorem test_decode_rotateTo_min : decodeTableWord 64 0x1100800000000000 = some (.rotateTo (-32768) 0) := by decide
/-- R97, R112 -/
theorem test_decode_nudgeCw : decodeTableWord 64 0x10010001000003E8 = some (.nudgeCw 1000) := by decide
/-- R112, V40 -/
theorem test_decode_nudgeCcw : decodeTableWord 64 0x10000001000003E8 = some (.nudgeCcw 1000) := by decide
/-- R103, the temperature phase. -/
theorem test_decode_temperature :
    decodeTableWord 8 0 = some .e0 ∧ decodeTableWord 8 1 = some .e1 ∧ decodeTableWord 8 2 = some .e2 ∧
      decodeTableWord 8 3 = some .e3 := by decide
/-- R103, the pressure phase. -/
theorem test_decode_pressure :
    decodeTableWord 8 4 = some .e4 ∧ decodeTableWord 8 5 = some .e5 ∧ decodeTableWord 8 6 = some .e6 ∧
      decodeTableWord 8 7 = some .e7 ∧ decodeTableWord 8 8 = some .e8 ∧ decodeTableWord 8 9 = some .e9 ∧
      decodeTableWord 8 10 = some .e10 ∧ decodeTableWord 8 11 = some .e11 ∧ decodeTableWord 8 12 = some .e12 ∧
      decodeTableWord 8 13 = some .e13 ∧ decodeTableWord 8 14 = some .e14 ∧ decodeTableWord 8 15 = some .e15 := by
  decide
/-- R103, the humidity phase and the commit. -/
theorem test_decode_humidity :
    decodeTableWord 8 16 = some .e16 ∧ decodeTableWord 8 17 = some .e17 ∧ decodeTableWord 8 18 = some .e18 ∧
      decodeTableWord 8 19 = some .e19 ∧ decodeTableWord 8 20 = some .e20 ∧ decodeTableWord 8 21 = some .e21 ∧
      decodeTableWord 8 22 = some .e22 := by decide
/-- R103: 23 to 31 name no micro-step, and more than five bits are no value of `eng_step`. -/
theorem test_decode_no_microStep :
    decodeTableWord 8 23 = none ∧ decodeTableWord 8 31 = none ∧ decodeTableWord 8 32 = none := by decide
/-- V40, the illegal words; each with the reason R100 gives. -/
theorem test_decode_illegal :
    decode (.command 0x0000000000000000) = .error .unknownOpcode ∧
    decode (.command 0x0100000000000001) = .error .operandBits ∧
    decode (.command 0x0201000000000000) = .error .operandBits ∧
    decode (.command 0x1002000100000000) = .error .reservedBits ∧
    decode (.command 0x1101005A000003E8) = .error .dirbitSet ∧
    decode (.command 0x1200000000000000) = .error .unknownOpcode ∧
    decode (.command 0xFFFFFFFFFFFFFFFF) = .error .reservedBits := by decide

/-! ### Bus bytes: V10 to V13 -/

/-- Bytes in bus order. -/
def bytes (b0 b1 b2 : BitVec 8) : BitVec 24 := b2 ++ b1 ++ b0

/-- V10 -/
theorem test_le16 :
    (le16 (bytes 0x18 0xFC 0)).toNat = 64536 ∧ (le16 (bytes 0x18 0xFC 0)).toInt = -1000 ∧
    (le16 (bytes 0x00 0x80 0)).toInt = -32768 ∧ (le16 (bytes 0x70 0x6B 0xFF)).toNat = 27504 := by decide
/-- V11 -/
theorem test_le8 :
    (le8 (bytes 0x80 0xAA 0xAA)).toNat = 128 ∧ (le8 (bytes 0x80 0 0)).toInt = -128 ∧
    (le8 (bytes 0x1E 0 0)).toInt = 30 := by decide
/-- V12 -/
theorem test_h4_h5 :
    (h4Bits (bytes 0x12 0x2D 0x03)).toInt = 301 ∧ (h5Bits (bytes 0x12 0x2D 0x03)).toInt = 50 ∧
    (h4Bits (bytes 0x80 0x0F 0x7F)).toInt = -2033 ∧ (h5Bits (bytes 0x80 0x0F 0x7F)).toInt = 2032 ∧
    (h4Bits (bytes 0xF0 0x00 0x80)).toInt = -256 ∧ (h5Bits (bytes 0xF0 0x00 0x80)).toInt = -2048 := by decide
/-- V13 -/
theorem test_be20_be16 :
    (be20 (bytes 0x65 0x5A 0xC0)).toNat = 415148 ∧ (be20 (bytes 0x7E 0xED 0x0F)).toNat = 519888 ∧
    (be20 (bytes 0x00 0x00 0x10)).toNat = 1 ∧ (be16 (bytes 0x75 0x30 0xFF)).toNat = 30000 := by decide

/-! ### States of the tests -/

/-- The next state of an outcome, if it is one. -/
def nextOf : Host.Outcome State Fault Refusal → Option State
  | .next s => some s
  | .fault _ => none
  | .refused _ => none

/-- CAL-A of 95_test_vectors.md (R129). -/
def calA : Cal where
  t1 := 27504
  t2 := 26435
  t3 := BitVec.ofInt 16 (-1000)
  p1 := 36477
  p2 := BitVec.ofInt 16 (-10685)
  p3 := 3024
  p4 := 2855
  p5 := 140
  p6 := BitVec.ofInt 16 (-7)
  p7 := 15500
  p8 := BitVec.ofInt 16 (-14600)
  p9 := 6000
  h1 := 75
  h2 := 367
  h3 := 0
  h4 := 301
  h5 := 50
  h6 := 30

/-- The engine at micro-step `k`, with CAL-A and the raw values of the worked example (R129, R209). -/
def engineAt (k : BitVec 5) : State :=
  { State.reset with
    cal := calA, adcT := 519888, adcP := 415148, adcH := 30000, calValid := true
    busy := true, curOp := .measure, mstate := .ready, engPhase := .running, engStep := k }

/-- An idle block with a loaded calibration. -/
def loaded : State := { State.reset with cal := calA, calValid := true }

/-- LOAD_CAL before the read of row `i`. -/
def loading (i : Fin 17) : State := { State.reset with busy := true, curOp := .loadCal, calIdx := i }

/-- LOAD_CAL with the read of row `i` in flight. -/
def loadFlight (i : Fin 17) : State := { loading i with flight := some (calRequest (loading i)) }

/-- MEASURE in state `m` with raw group `g` next. -/
def measuringIn (m : MState) (g : RawGroup) : State :=
  { loaded with busy := true, curOp := .measure, mstate := m, rdIdx := g }

/-- The same with its transaction in flight. -/
def measureFlight (m : MState) (g : RawGroup) : State :=
  { measuringIn m g with flight := measureRequest (measuringIn m g) }

/-- MEASURE waiting for `n` more microseconds of the poll interval. -/
def pollWaiting (n : BitVec 32) : State := { measuringIn .polling .pressure with waiting := true, dlyCnt := n }

/-- The engine after its commit. -/
def engineDone : State := { measuringIn .ready .pressure with engPhase := .done, resValid := true }

/-- A motor command in direction `d` with `u` units and `e` entries left, at position `p` (RES = 512). -/
def driving (d : Dir) (p : Int) (u : BitVec 16) (e : BitVec 4) : State :=
  { State.reset with
    busy := true, curOp := .rotateBy, dir := d, unitsLeft := u, entLeft := e, stepDelay := 1000
    pos := BitVec.ofInt 16 p }

/-- The same inside the wait of an activation. -/
def driveWaiting (d : Dir) (p : Int) (u : BitVec 16) (e : BitVec 4) (n : BitVec 32) : State :=
  { driving d p u e with waiting := true, dlyCnt := n }

/-- An idle block at position `p`. -/
def idleAt (p : Int) : State := { State.reset with pos := BitVec.ofInt 16 p }

/-- The state with `i` at the coming edge. -/
def seeing (s : State) (i : PortIn) : State := { s with inputs := [i] }

/-! ### Commands at the port -/

/-- V55: LOAD_CAL taken after reset: busy, and nothing refused. -/
theorem test_loadCal_taken : (nextOf (exec .loadCal State.reset)).map (·.status) = some 0x001 := by decide
/-- V55: LOAD_CAL a second time: STATUS 0x042. -/
theorem test_loadCal_refused : (nextOf (exec .loadCal loaded)).map (·.status) = some 0x042 := by decide
/-- R194: the trigger write is not yet made: `mstate` is Idle. -/
theorem test_measure_taken : (nextOf (exec .measure loaded)).map (·.status) = some 0x003 := by decide
/-- V55: MEASURE without a calibration: STATUS 0x030. -/
theorem test_measure_refused : (nextOf (exec .measure State.reset)).map (·.status) = some 0x030 := by decide
/-- V44 row 3: pos 128, cw, 200 degrees: S = 128. -/
theorem test_rotateBy_clamped :
    (nextOf (exec (.rotateBy true 200 0) (idleAt 128))).map (·.unitsLeft) = some 128 := by decide
/-- V44 row 8: pos −200, ccw, 90 degrees: S = 56, backward. -/
theorem test_rotateBy_ccw :
    (nextOf (exec (.rotateBy false 90 0) (idleAt (-200)))).map (fun t => (t.unitsLeft, t.dir)) =
      some (56, .backward) := by decide
/-- V46 row 2: pos 200, target 100: backward, S = 57. -/
theorem test_rotateTo_backward :
    (nextOf (exec (.rotateTo 100 0) (idleAt 200))).map (fun t => (t.unitsLeft, t.dir)) = some (57, .backward) := by
  decide
/-- V46 row 13: pos −200, target −100: forward, S = 57. -/
theorem test_rotateTo_negative :
    (nextOf (exec (.rotateTo (-100) 0) (idleAt (-200)))).map (fun t => (t.unitsLeft, t.dir)) =
      some (57, .forward) := by decide
/-- PRG3 row 1: one unit forward, eight entries, D = 1000. -/
theorem test_nudgeCw :
    (nextOf (exec (.nudgeCw 1000) State.reset)).map (fun t => (t.unitsLeft, t.entLeft, t.dir, t.stepDelay)) =
      some (1, 8, .forward, 1000) := by decide
/-- V44 row 2: from pos 1 back to 0. -/
theorem test_nudgeCcw :
    (nextOf (exec (.nudgeCcw 1000) (idleAt 1))).map (fun t => (t.unitsLeft, t.entLeft, t.dir)) =
      some (1, 8, .backward) := by decide
/-- PRG3 row 4: at the boundary nothing is left to drive. -/
theorem test_nudgeCw_boundary :
    (nextOf (exec (.nudgeCw 1000) (idleAt 256))).map (fun t => (t.unitsLeft, t.entLeft)) = some (0, 0) := by decide
/-- V55, R266: an illegal word after reset: STATUS 0x020, and it pulses `done`. -/
theorem test_illegal_refused :
    (nextOf (step (seeing State.reset (.offer 0x1200000000000000)))).map (fun t => (t.status, t.done)) =
      some (0x020, true) := by decide

/-! ### Micro-steps: V20, V21, V24, V30 -/

/-- V20 row 2 -/
theorem test_e0 : (nextOf (exec .e0 (engineAt 0))).map (·.v1) = some 128793 := by decide
/-- V20 row 8: the largest `v1`. -/
theorem test_e0_largest :
    (nextOf (exec .e0 { engineAt 0 with adcT := 0, cal := { calA with t1 := 65535, t2 := 0x8000 } })).map (·.v1) =
      some 2097120 := by decide
/-- V20 row 2: −371, not −370. -/
theorem test_e1_floors : (nextOf (exec .e1 (engineAt 1))).map (·.v2) = some (-371) := by decide
/-- V20 row 2 -/
theorem test_e2 :
    (nextOf (exec .e2 { engineAt 2 with v1 := 128793, v2 := -371 })).map (·.tFine) = some 128422 := by decide
/-- V20 row 7: the smallest `t_fine`. -/
theorem test_e2_smallest :
    (nextOf (exec .e2 { engineAt 2 with v1 := -2097136, v2 := -2097088 })).map (·.tFine.toInt) = some (-4194224) := by
  decide
/-- V20 row 2 -/
theorem test_e3 : (nextOf (exec .e3 { engineAt 3 with tFine := 128422 })).map (·.tW) = some 2508 := by decide
/-- V20 row 3: a negative temperature. -/
theorem test_e3_negative :
    (nextOf (exec .e3 { engineAt 3 with tFine := BitVec.ofInt 32 (-64736) })).map (·.tW.toInt) = some (-1264) := by
  decide
/-- V21 row 1, as the next nine. -/
theorem test_e4 : (nextOf (exec .e4 { engineAt 4 with tFine := 128422 })).map (·.v1) = some 422 := by decide
theorem test_e5 : (nextOf (exec .e5 { engineAt 5 with v1 := 422 })).map (·.v2) = some (-1246588) := by decide
theorem test_e6 :
    (nextOf (exec .e6 { engineAt 6 with v1 := 422, v2 := -1246588 })).map (·.v2) = some 7742487172 := by decide
theorem test_e7 :
    (nextOf (exec .e7 { engineAt 7 with v2 := 7742487172 })).map (·.v2) = some 98104795527812 := by decide
theorem test_e8 : (nextOf (exec .e8 { engineAt 8 with v1 := 422 })).map (·.v1) = some (-18467047103) := by decide
theorem test_e9 :
    (nextOf (exec .e9 { engineAt 9 with v1 := -18467047103 })).map (·.v1) = some 597560748 := by decide
theorem test_e10 :
    (nextOf (exec .e10 { engineAt 10 with v1 := 597560748 })).map (fun t => (t.acc, t.engStep)) =
      some (633428, 11) := by decide
/-- V22: the sentinel. -/
theorem test_e10_sentinel :
    (nextOf (exec .e10 { engineAt 10 with v1 := 0, pW := 7 })).map (fun t => (t.pW, t.engStep)) = some (0, 16) := by
  decide
theorem test_e11 :
    (nextOf (exec .e11 { engineAt 11 with acc := 633428, v1 := 597560748, v2 := 98104795527812 })).map (·.acc) =
      some 6600644165 := by decide
/-- V24: the numerator is negative, the quotient truncates: −5887848776. -/
theorem test_e11_truncates :
    (nextOf (exec .e11 { engineAt 11 with
      acc := 1, v1 := 597560748, v2 := 7742487172 + 32767 * 2 ^ 35 })).map (·.acc) = some (-5887848776) := by decide
theorem test_e12 :
    (nextOf (exec .e12 { engineAt 12 with acc := 6600644165 })).map (·.v1) = some 116089612 := by decide
theorem test_e13 :
    (nextOf (exec .e13 { engineAt 13 with acc := 6600644165 })).map (·.v2) = some (-183810053) := by decide
theorem test_e14 :
    (nextOf (exec .e14 { engineAt 14 with acc := 6600644165, v1 := 116089612, v2 := -183810053 })).map (·.acc) =
      some 25767233 := by decide
theorem test_e15 : (nextOf (exec .e15 { engineAt 15 with acc := 25767233 })).map (·.pW) = some 25767233 := by decide
/-- V21 row 5: the exact result is negative. -/
theorem test_e15_wraps :
    (nextOf (exec .e15 { engineAt 15 with acc := -1697504 })).map (·.pW) = some 4293269792 := by decide
/-- V30 row 3, as the next two. -/
theorem test_e16 : (nextOf (exec .e16 { engineAt 16 with tFine := 128422 })).map (·.acc) = some 51622 := by decide
theorem test_e17 : (nextOf (exec .e17 { engineAt 17 with acc := 51622 })).map (·.acc) = some 254189340 := by decide
theorem test_e18 : (nextOf (exec .e18 { engineAt 18 with acc := 254189340 })).map (·.acc) = some 251985812 := by decide
/-- V30 row 1 -/
theorem test_e17_negative :
    (nextOf (exec .e17 { engineAt 17 with acc := 51622, adcH := 0 })).map (·.acc) = some (-466710660) := by decide
theorem test_e18_negative :
    (nextOf (exec .e18 { engineAt 18 with acc := -466710660 })).map (·.acc) = some (-474139724) := by decide
/-- R170 -/
theorem test_e19 : (nextOf (exec .e19 { engineAt 19 with acc := -5 })).map (·.acc) = some 0 := by decide
theorem test_e19_keeps :
    (nextOf (exec .e19 { engineAt 19 with acc := 251985812 })).map (·.acc) = some 251985812 := by decide
/-- R171 -/
theorem test_e20 : (nextOf (exec .e20 { engineAt 20 with acc := 500000000 })).map (·.acc) = some 419430400 := by decide
theorem test_e20_keeps :
    (nextOf (exec .e20 { engineAt 20 with acc := 419430400 })).map (·.acc) = some 419430400 := by decide
/-- R172 -/
theorem test_e21 : (nextOf (exec .e21 { engineAt 21 with acc := 251985812 })).map (·.hW) = some 61519 := by decide
theorem test_e21_ceiling :
    (nextOf (exec .e21 { engineAt 21 with acc := 419430400 })).map (·.hW) = some 102400 := by decide
/-- R173 -/
theorem test_e22 :
    (nextOf (exec .e22 { engineAt 22 with tW := 2508, pW := 25767233, hW := 61519 })).map
        (fun t => (t.tRes, t.pRes, t.hRes, t.resValid, t.engStep)) =
      some (2508, 25767233, 61519, true, 0) := by decide

/-! ### The sequences, one edge each -/

/-- R122, R44: the first read of LOAD_CAL on the bus ports. -/
theorem test_first_calibration_read :
    (nextOf (step (loading 0))).map (fun t => (t.ports 0).busReqOff) = some 0x88 ∧
    (nextOf (step (loading 15))).map (fun t => (t.ports 0).busReqLen) = some 3 := by decide
/-- R129: the answer at 0x8C gives T3 = −1000. -/
theorem test_calibration_row :
    (nextOf (step (seeing (loadFlight 2) (.answer (bytes 0x18 0xFC 0))))).map
        (fun t => (t.cal.t3.toInt, t.calIdx)) = some (-1000, 3) := by decide
/-- R125: after row 16 the calibration is valid. -/
theorem test_calibration_end :
    (nextOf (step (seeing (loadFlight 16) (.answer (bytes 0x1E 0 0))))).map
        (fun t => (t.cal.h6, t.status, t.done)) = some (30, 0x002, true) := by decide
/-- PRG2 row 2: the read of row 5 fails. -/
theorem test_calibration_bus_error :
    (nextOf (step (seeing (loadFlight 5) .failure))).map (fun t => (t.status, t.calIdx)) = some (0x010, 0) := by
  decide
/-- PRG1: 0x0C has bit 3 set, 0x04 does not. -/
theorem test_status_bit :
    (nextOf (step (seeing (measureFlight .polling .pressure) (.answer 0x0C)))).map
        (fun t => (t.waiting, t.mstate)) = some (true, .polling) ∧
    (nextOf (step (seeing (measureFlight .polling .pressure) (.answer 0x04)))).map
        (fun t => (t.waiting, t.mstate)) = some (false, .ready) := by decide
/-- R199 -/
theorem test_raw_pressure :
    (nextOf (step (seeing (measureFlight .ready .pressure) (.answer (bytes 0x65 0x5A 0xC0))))).map
        (fun t => (t.adcP, t.rdIdx)) = some (415148, .temperature) := by decide
/-- V48: the first entry forward is 0x1, backward 0x9. -/
theorem test_first_entry :
    (nextOf (step (driving .forward 0 1 8))).map (fun t => (t.coil, t.seqIdx, t.dlyCnt)) = some (0x1, 0, 1000) ∧
    (nextOf (step (driving .backward 0 1 8))).map (fun t => (t.coil, t.seqIdx)) = some (0x9, 7) := by decide
/-- V48, EPU = 7: the last entry forward is 0x8 and backward 0x3. -/
theorem test_last_of_seven :
    (nextOf (step { driving .forward 0 1 1 with params := { Params.atReset with epu := 7 } })).map
        (fun t => (t.coil, t.seqIdx)) = some (0x8, 6) ∧
    (nextOf (step { driving .backward 0 1 1 with params := { Params.atReset with epu := 7 } })).map
        (fun t => (t.coil, t.seqIdx)) = some (0x3, 1) := by decide
/-- R236: the end of a unit. -/
theorem test_unit_end :
    (nextOf (step (driving .backward 0 2 0))).map (fun t => (t.pos, t.unitsLeft, t.entLeft)) =
      some (0xFFFF, 1, 8) := by decide
/-- PRG3 row 1: MOTOR reads 0x79, POS of −128 reads 0xFFFFFF80 (row 2). -/
theorem test_host_motor_views :
    State.hostRead { State.reset with coil := 0x9, seqIdx := 7 } 5 = 0x79 ∧
    State.hostRead (idleAt (-128)) 4 = 0xFFFFFF80 := by decide
/-- V55: during the poll loop after a refusal STATUS is 0x243. -/
theorem test_host_status :
    State.hostRead { measuringIn .polling .pressure with err := .calAlreadyLoaded } 0 = 0x243 := by decide

/-! ### The text front-end: V50, D = 1000 -/

theorem test_text_literals :
    payloadCode 1000 "CLOCKWISE".toList = .ok (.command 0x10010001000003E8) ∧
    payloadCode 1000 "CounterClockwise".toList = .ok (.command 0x10000001000003E8) := by decide
theorem test_text_integers :
    payloadCode 1000 " -90 ".toList = .ok (.command 0x1100FFA6000003E8) ∧
    payloadCode 1000 "+45".toList = .ok (.command 0x1100002D000003E8) ∧
    payloadCode 1000 "99999".toList = .ok (.command 0x11007FFF000003E8) ∧
    payloadCode 1000 "-99999".toList = .ok (.command 0x11008000000003E8) := by decide
theorem test_text_errors :
    payloadCode 1000 "abc".toList = .error .inputError ∧ payloadCode 1000 "".toList = .error .inputError ∧
    payloadCode 1000 "12.5".toList = .error .inputError ∧ payloadCode 1000 "clock wise".toList = .error .inputError ∧
    payloadCode 1000 "--5".toList = .error .inputError ∧ payloadCode 1000 "1_0".toList = .error .inputError := by
  decide
/-- R108: the written form of the word 0x1100FFA6000007D0. -/
theorem test_written : written (.rotateTo (-90) 2000) = "ROTATE_TO -90, 2000" := by decide

/-! ### The fetched word runs first after reset -/

theorem test_fetch_command :
    nextOf (step (State.reset.withFetchWord 64 0x0100000000000000)) = nextOf (exec .loadCal State.reset) := by decide
theorem test_fetch_microStep :
    (nextOf (step (State.reset.withFetchWord 8 16))).map (fun t => (t.acc, t.engStep)) = some (-76800, 17) := by decide


/-! ### Witnesses: states that satisfy the invariant, one for each part of a command -/

theorem inv_reset : State.reset.Inv := by constructor <;> decide
theorem inv_loaded : loaded.Inv := by constructor <;> decide
theorem inv_idleAt_ends : (idleAt 256).Inv ∧ (idleAt (-256)).Inv := by constructor <;> constructor <;> decide
theorem inv_loading_ends : (loading 0).Inv ∧ (loading 16).Inv := by constructor <;> constructor <;> decide
theorem inv_loadFlight_ends : (loadFlight 0).Inv ∧ (loadFlight 16).Inv := by constructor <;> constructor <;> decide
theorem inv_measure_idle : (measuringIn .idle .pressure).Inv ∧ (measureFlight .idle .pressure).Inv := by
  constructor <;> constructor <;> decide
theorem inv_measure_triggered : (measuringIn .triggered .pressure).Inv := by constructor <;> decide
theorem inv_measure_polling : (measuringIn .polling .pressure).Inv ∧ (measureFlight .polling .pressure).Inv := by
  constructor <;> constructor <;> decide
theorem inv_pollWaiting : (pollWaiting 0).Inv ∧ (pollWaiting 1).Inv := by constructor <;> constructor <;> decide
theorem inv_measure_ready :
    (measuringIn .ready .pressure).Inv ∧ (measureFlight .ready .pressure).Inv ∧
    (measureFlight .ready .temperature).Inv ∧ (measureFlight .ready .humidity).Inv := by
  refine ⟨?_, ?_, ?_, ?_⟩ <;> constructor <;> decide
theorem inv_engine : (engineAt 0).Inv ∧ (engineAt 22).Inv ∧ engineDone.Inv := by
  refine ⟨?_, ?_, ?_⟩ <;> constructor <;> decide
theorem inv_driving :
    (driving .forward 255 1 8).Inv ∧ (driving .backward (-255) 1 1).Inv ∧ (driving .forward 255 1 0).Inv ∧
    (driving .backward 256 512 0).Inv ∧ (driving .forward 256 0 0).Inv := by
  refine ⟨?_, ?_, ?_, ?_, ?_⟩ <;> constructor <;> decide
theorem inv_driveWaiting :
    (driveWaiting .forward 255 1 8 1000).Inv ∧ (driveWaiting .backward (-255) 1 1 0).Inv := by
  constructor <;> constructor <;> decide

/-- The invariant does not look at the inputs. -/
theorem inv_seeing {s : State} (h : s.Inv) (i : PortIn) : (seeing s i).Inv := by
  cases h; constructor <;> assumption

/-- Idle blocks, at rest. -/
theorem ready_reset : State.reset.Ready := ⟨inv_reset, rfl⟩
theorem ready_loaded : loaded.Ready := ⟨inv_loaded, rfl⟩
theorem ready_ends : (idleAt 256).Ready ∧ (idleAt (-256)).Ready :=
  ⟨⟨inv_idleAt_ends.1, rfl⟩, inv_idleAt_ends.2, rfl⟩

/-! ### Witnesses: one theorem for the hypotheses of each statement that has some -/

theorem witness_DecodeInvertsEncode :
    WellFormed (.rotateBy true 65535 4294967295) ∧ WellFormed (.rotateBy false 1 0) ∧
    WellFormed (.rotateTo (-32768) 4294967295) ∧ WellFormed .e22 := by decide
theorem witness_EncodeInvertsDecode :
    decode (.command 0x1001FFFFFFFFFFFF) = .ok (.rotateBy true 65535 4294967295) ∧
    decode (.microStep 22) = .ok .e22 := by decide
theorem witness_IllegalWordsAreRefused :
    let s := seeing State.reset (.offer 0x1101005A000003E8)
    s.busy = false ∧ s.input.rst = false ∧ s.input.cmdValid = true ∧
      decode (.command s.input.cmd) = .error .dirbitSet := by decide
theorem witness_TextPayloadsProduceTheirCommands :
    "ClockWise".toList.map foldCase = "clockwise".toList ∧
    "COUNTERclockwise".toList.map foldCase = "counterclockwise".toList ∧
    " \t".toList.all isSpace = true ∧ ([] : List Char).all isSpace = true ∧
    "32768".toList ≠ [] ∧ "32768".toList.all isDigit = true := by decide
theorem witness_StepRunsTheDecodedInstruction :
    (let s := seeing State.reset (.offer 0x0200000000000000)
     s.input.rst = false ∧ s.busy = false ∧ s.input.cmdValid = true ∧
       decode (.command s.input.cmd) = .ok .measure) ∧
    (let s := engineAt 22
     s.input.rst = false ∧ s.busy = true ∧ s.engPhase = .running ∧ decode (.microStep s.engStep) = .ok .e22) := by
  decide
theorem witness_FetchWordIsExecutedNext :
    decodeTableWord 64 0x1100800000000000 = some (.rotateTo (-32768) 0) ∧ decodeTableWord 8 22 = some .e22 := by decide
theorem witness_LoadCalAdmission :
    (State.reset.busy = false ∧ State.reset.calValid = false) ∧ loaded.busy = false ∧ loaded.calValid = true := by decide
theorem witness_MeasureAdmission :
    (State.reset.busy = false ∧ State.reset.calValid = false) ∧ loaded.busy = false ∧ loaded.calValid = true := by decide
theorem witness_RotateByLatchesTheClampedStepCount :
    (idleAt 256).Ready ∧ (idleAt (-256)).Ready ∧ 65535 < 2 ^ 16 ∧ 4294967295 < 2 ^ 32 :=
  ⟨ready_ends.1, ready_ends.2, by decide, by decide⟩
/-- Both directions: the target above and at the position. -/
theorem witness_RotateToLatchesTheStepCount :
    State.reset.Ready ∧ (-32768 : Int) ≤ 32767 ∧ 4294967295 < 2 ^ 32 ∧
    (max (-180) (min 32767 180) : Int) * State.reset.params.res > State.reset.pos.toInt * 360 ∧
    (max (-180) (min (-32768) 180) : Int) * State.reset.params.res ≤ State.reset.pos.toInt * 360 ∧
    (max (-180) (min 0 180) : Int) * State.reset.params.res ≤ State.reset.pos.toInt * 360 :=
  ⟨ready_reset, by decide, by decide, by decide, by decide, by decide⟩
theorem witness_BusyBlockIgnoresTheCommandPort : (driving .forward 255 1 8).busy = true ∧ Instr.isCommand .loadCal = true := by
  decide
theorem witness_ZeroDenominatorSkipsTheDivision :
    (engineAt 10).v1 = 0 ∧ { engineAt 10 with v1 := -1 }.v1 ≠ 0 ∧ ∃ t, exec .e9 (engineAt 9) = .next t :=
  ⟨by decide, by decide, _, rfl⟩
theorem witness_DivisionTruncatesTowardZero : { engineAt 11 with v1 := -1 }.v1 ≠ 0 := by decide
theorem witness_ZeroDivisorLeavesOnlyTheQuotientOpen : (engineAt 11).v1 = 0 := by decide
theorem witness_CommitWritesTheTripleTogether :
    (nextOf (exec .e22 (engineAt 22))).map (fun t => (t.busy, t.input.rst)) = some (true, false) := by decide
/-- On the long path and on the sentinel path (P1 = 0). -/
theorem witness_EngineComputesTheClosedForms :
    (let s := engineAt 0
     s.busy = true ∧ s.engPhase = .running ∧ s.engStep = 0 ∧ s.cycleMicroSteps = 23 ∧
       ∀ k < s.cycleMicroSteps, (s.inputs.getD k .quiet).rst = false) ∧
    (let s := { engineAt 0 with cal := { calA with p1 := 0 } }
     s.busy = true ∧ s.engPhase = .running ∧ s.engStep = 0 ∧ s.cycleMicroSteps = 18 ∧
       ∀ k < s.cycleMicroSteps, (s.inputs.getD k .quiet).rst = false) := by decide
/-- The engine before E12, with the largest `t_fine`, `t_w` and quotient of R147. -/
def engineLargest : State := { engineAt 12 with tFine := 4194144, tW := 81917, acc := 1981563369114828800000 }
theorem range_engineLargest : engineRange engineLargest.engStep.toNat engineLargest := by
  show temperatureRange _ ∧ within _ _ _
  exact ⟨⟨⟨by decide, by decide⟩, by decide, by decide⟩, by decide, by decide⟩
theorem witness_EngineValuesStayInRange :
    EngineInRange engineLargest ∧ engineLargest.engPhase = .running ∧ ∃ s', step engineLargest = .next s' :=
  ⟨fun _ => range_engineLargest, rfl, _, rfl⟩
theorem witness_EngineFitsTheAccumulatorWidth :
    engineRange engineLargest.engStep.toNat engineLargest ∧ intermediates engineLargest ≠ [] :=
  ⟨range_engineLargest, by decide⟩
theorem witness_HumidityIsClamped :
    compHUnclamped 0 128422 75 367 0 301 50 30 < 0 ∧ 419430400 < compHUnclamped 40000 128422 75 367 0 301 50 30 ∧
    0 ≤ compHUnclamped 30000 128422 75 367 0 301 50 30 ∧
    compHUnclamped 30000 128422 75 367 0 301 50 30 ≤ 419430400 := by decide
/-- V22 and V23. -/
theorem witness_PressureSentinel :
    compDenominator 128422 0 (-10685) 3024 = 0 ∧ compDenominator 1176576 36477 (-32768) 0 = 0 ∧
    compDenominator 128422 36477 (-10685) 3024 ≠ 0 := by decide
theorem witness_CalibrationRowsAreWrittenPerTable :
    (∀ i : Fin 17,
      let s := loading i
      s.busy = true ∧ s.curOp = .loadCal ∧ s.engPhase = .off ∧ s.waiting = false ∧ s.flight = none ∧
        s.input.rst = false) ∧
    ∀ i : Fin 17,
      let s := seeing (loadFlight i) (.answer 0xFFFFFF)
      s.busy = true ∧ s.curOp = .loadCal ∧ s.engPhase = .off ∧ s.waiting = false ∧ s.flight ≠ none ∧ s.calIdx = i ∧
        s.input.rst = false ∧ s.input.busRespValid = true ∧ s.input.busRespErr = false := by decide
/-- A calibration read, the trigger, a status read and the three raw reads start. -/
theorem witness_OnlyListedTransactionsAreIssued :
    ∀ s ∈ [loading 0, loading 16, measuringIn .idle .pressure, measuringIn .polling .pressure,
        measuringIn .ready .pressure, measuringIn .ready .temperature, measuringIn .ready .humidity],
      (nextOf (step s)).any (fun s' => s'.flight.isSome && s'.flight != s.flight) = true := by decide
/-- A transaction that stays and one that ends. -/
theorem witness_OneTransactionAtATime :
    (seeing (loadFlight 0) .quiet).Inv ∧ (seeing (loadFlight 0) .quiet).flight = some (calRequest (loading 0)) ∧
    (∃ s', step (seeing (loadFlight 0) .quiet) = .next s') ∧
    (seeing (loadFlight 0) (.answer 0)).Inv ∧ ∃ s', step (seeing (loadFlight 0) (.answer 0)) = .next s' :=
  ⟨inv_seeing inv_loadFlight_ends.1 _, rfl, ⟨_, rfl⟩, inv_seeing inv_loadFlight_ends.1 _, _, rfl⟩
theorem witness_BusErrorEndsTheCommand :
    ((seeing (loadFlight 16) .failure).Inv ∧ (loadFlight 16).flight ≠ none ∧ (loadFlight 16).curOp = .loadCal) ∧
    ((seeing (measureFlight .idle .pressure) .failure).Inv ∧ (measureFlight .idle .pressure).flight ≠ none ∧
      (measureFlight .idle .pressure).curOp = .measure) ∧
    PortIn.failure.rst = false ∧ PortIn.failure.busRespValid = true ∧ PortIn.failure.busRespErr = true :=
  ⟨⟨inv_seeing inv_loadFlight_ends.2 _, by decide, by decide⟩,
    ⟨inv_seeing inv_measure_idle.2 _, by decide, by decide⟩, by decide⟩
theorem witness_LoadCalRunsToCompletion :
    ∃ (s : State) (a : Fin 17 → Nat × BitVec 24), s.Ready ∧ s.calValid = false ∧
      s.inputs = .offer 0x0100000000000000 :: loadInputs a ++ [] := by
  refine ⟨{ State.reset with inputs := .offer 0x0100000000000000 :: loadInputs (fun _ => (1, 0xFFFFFF)) ++ [] },
    fun _ => (1, 0xFFFFFF), ⟨?_, rfl⟩, rfl, rfl⟩
  have h := inv_reset
  cases h; constructor <;> assumption
/-- The answers of PRG1: two status reads with bit 3 set, then one with it clear. -/
def cycleA : CycleAnswers where
  trigger := (0, 0)
  polls := [(0, 0x08), (2, 0x0C)]
  last := (0, 0x04)
  pressure := (0, bytes 0x65 0x5A 0xC0)
  temperature := (1, bytes 0x7E 0xED 0x00)
  humidity := (0, bytes 0x75 0x30 0)
theorem witness_MeasureRunsToCompletion :
    ∃ s : State, s.Ready ∧ s.calValid = true ∧ cycleA.pollsEnd ∧
      s.inputs = .offer 0x0200000000000000 :: cycleA.inputs s ++ [] := by
  refine ⟨{ loaded with inputs := .offer 0x0200000000000000 :: cycleA.inputs loaded ++ [] },
    ⟨?_, rfl⟩, rfl, ⟨by decide, by decide⟩, rfl⟩
  have h := inv_loaded
  cases h; constructor <;> assumption
/-- Each row of R191's table that changes `mstate` is taken. -/
theorem witness_MeasurementStateTransitions :
    (nextOf (step (seeing (measureFlight .idle .pressure) (.answer 0)))).map (·.mstate) = some .triggered ∧
    (nextOf (step (measuringIn .triggered .pressure))).map (·.mstate) = some .polling ∧
    (nextOf (step (seeing (measureFlight .polling .pressure) (.answer 0xF7)))).map (·.mstate) = some .ready ∧
    (nextOf (step (seeing (measureFlight .polling .pressure) .failure))).map (·.mstate) = some .idle ∧
    (nextOf (step engineDone)).map (·.mstate) = some .idle ∧
    (nextOf (step (seeing (measureFlight .ready .humidity) .failure))).map (·.mstate) = some .idle := by decide
/-- The states of the two before satisfy the invariant, and their inputs do not reset. -/
theorem witness_TriggerLeadsToPolling :
    ((measuringIn .idle .pressure).Inv ∧ (measuringIn .idle .pressure).flight = none) ∧
    ((seeing (measureFlight .idle .pressure) (.answer 0)).Inv ∧ (measureFlight .idle .pressure).flight ≠ none) ∧
    (measuringIn .triggered .pressure).Inv ∧
    (PortIn.answer 0).rst = false ∧ (PortIn.answer 0).busRespValid = true ∧ (PortIn.answer 0).busRespErr = false :=
  ⟨⟨inv_measure_idle.1, by decide⟩, ⟨inv_seeing inv_measure_idle.2 _, by decide⟩, inv_measure_triggered, by decide⟩
/-- R206(b): 0xF7 leaves the loop, 0x08 stays in it. -/
theorem witness_StatusBitThreeDecides :
    ((measuringIn .polling .pressure).Inv ∧ (measuringIn .polling .pressure).flight = none ∧
      (measuringIn .polling .pressure).waiting = false) ∧
    (seeing (measureFlight .polling .pressure) (.answer 0x08)).Inv ∧
    (seeing (measureFlight .polling .pressure) (.answer 0xF7)).Inv ∧
    (measureFlight .polling .pressure).flight ≠ none ∧
    (PortIn.answer 0x08).busRespRdata.getLsbD 3 = true ∧ (PortIn.answer 0xF7).busRespRdata.getLsbD 3 = false :=
  ⟨⟨inv_measure_polling.1, by decide⟩, inv_seeing inv_measure_polling.2 _, inv_seeing inv_measure_polling.2 _, by decide⟩
theorem witness_RawGroupsAreReadInOrder :
    ((measuringIn .ready .pressure).Inv ∧ (measuringIn .ready .pressure).flight = none) ∧
    ((seeing (measureFlight .ready .pressure) (.answer 0)).Inv ∧ (measureFlight .ready .pressure).rdIdx = .pressure) ∧
    ((seeing (measureFlight .ready .temperature) (.answer 0)).Inv ∧
      (measureFlight .ready .temperature).rdIdx = .temperature) ∧
    ((seeing (measureFlight .ready .humidity) (.answer 0)).Inv ∧
      (measureFlight .ready .humidity).rdIdx = .humidity) ∧
    (measureFlight .ready .humidity).flight ≠ none ∧ (measureFlight .ready .humidity).engPhase = .off :=
  ⟨⟨inv_measure_ready.1, by decide⟩, ⟨inv_seeing inv_measure_ready.2.1 _, by decide⟩,
    ⟨inv_seeing inv_measure_ready.2.2.1 _, by decide⟩, ⟨inv_seeing inv_measure_ready.2.2.2 _, by decide⟩,
    by decide, by decide⟩
/-- RES = 65535 at both ends of the range (V44 rows 16 and 17), and RES = 1. -/
theorem witness_RotateByIntegerFormIsExact :
    (let p := { Params.atReset with res := 65535 }
     p.wf ∧ -halfTurn p ≤ -32767 ∧ (-32767 : Int) ≤ halfTurn p ∧ -halfTurn p ≤ 32767 ∧ (32767 : Int) ≤ halfTurn p) ∧
    (let p := { Params.atReset with res := 1 }
     p.wf ∧ -halfTurn p ≤ 0 ∧ (0 : Int) ≤ halfTurn p) := by decide
/-- V46 rows 15 and 16: odd RES, where 180 degrees is not on the lattice. -/
theorem witness_RotateToIntegerFormIsExact :
    let p := { Params.atReset with res := 513 }
    p.wf ∧ -halfTurn p ≤ 256 ∧ (256 : Int) ≤ halfTurn p ∧ -halfTurn p ≤ -256 ∧ (-256 : Int) ≤ halfTurn p := by decide
/-- The same. -/
theorem witness_RotateToIsIdempotent :
    let p := { Params.atReset with res := 513 }
    p.wf ∧ -halfTurn p ≤ 256 ∧ (256 : Int) ≤ halfTurn p ∧ -halfTurn p ≤ -256 ∧ (-256 : Int) ≤ halfTurn p := by decide
/-- The first entry of a unit forward and the last one backward. -/
theorem witness_ActivationDrivesTheNextEntry :
    (let s := driving .forward 255 1 8
     s.Inv ∧ s.motorRunning ∧ s.waiting = false ∧ s.entLeft ≠ 0 ∧ s.input.rst = false) ∧
    (let s := driving .backward (-255) 1 1
     s.Inv ∧ s.motorRunning ∧ s.waiting = false ∧ s.entLeft ≠ 0 ∧ s.input.rst = false) :=
  ⟨⟨inv_driving.1, by decide⟩, inv_driving.2.1, by decide⟩
/-- The last unit before the boundary, the first of a full sweep, and none left. -/
theorem witness_UnitEndMovesPositionByOne :
    (let s := driving .forward 255 1 0
     s.Inv ∧ s.motorRunning ∧ s.waiting = false ∧ s.entLeft = 0 ∧ s.input.rst = false ∧ s.unitsLeft ≠ 0) ∧
    (let s := driving .backward 256 512 0
     s.Inv ∧ s.motorRunning ∧ s.waiting = false ∧ s.entLeft = 0 ∧ s.input.rst = false ∧ s.unitsLeft ≠ 0) ∧
    (let s := driving .forward 256 0 0
     s.Inv ∧ s.motorRunning ∧ s.waiting = false ∧ s.entLeft = 0 ∧ s.input.rst = false ∧ s.unitsLeft = 0) :=
  ⟨⟨inv_driving.2.2.1, by decide⟩, ⟨inv_driving.2.2.2.1, by decide⟩, inv_driving.2.2.2.2, by decide⟩
/-- A step that goes on and one that completes. -/
theorem witness_MotorReachesItsDestination :
    (let s := driving .forward 255 1 0
     s.Inv ∧ s.motorRunning ∧ s.input.rst = false ∧ (∃ s', step s = .next s') ∧ s.destination = 256) ∧
    (let s := driving .forward 256 0 0
     s.Inv ∧ s.motorRunning ∧ s.input.rst = false ∧ (∃ s', step s = .next s') ∧ s.destination = 256) :=
  ⟨⟨inv_driving.2.2.1, by decide, by decide, ⟨_, rfl⟩, by decide⟩,
    inv_driving.2.2.2.2, by decide, by decide, ⟨_, rfl⟩, by decide⟩
theorem witness_RotateByRunsToCompletion :
    ∃ s : State, s.Ready ∧ 1 < 2 ^ 16 ∧ 2 < 2 ^ 32 ∧
      encode (.rotateBy true 1 2) = .command 0x1001000100000002 ∧
      rotateByUnits s.params s.position true 1 = 1 ∧
      s.inputs = .offer 0x1001000100000002 :: motorInputs 1 s.params.epu 2 ++ [] := by
  refine ⟨{ State.reset with inputs := .offer 0x1001000100000002 :: motorInputs 1 8 2 ++ [] },
    ⟨?_, rfl⟩, by decide, by decide, by decide, by decide, rfl⟩
  have h := inv_reset
  cases h; constructor <;> assumption
theorem witness_RotateToRunsToCompletion :
    ∃ s : State, s.Ready ∧ (-32768 : Int) ≤ -1 ∧ (-1 : Int) ≤ 32767 ∧ 0 < 2 ^ 32 ∧
      encode (.rotateTo (-1) 0) = .command 0x1100FFFF00000000 ∧
      rotateToUnits s.params s.position (-1) = 1 ∧ rotateToDir s.params s.position (-1) = .backward ∧
      s.inputs = .offer 0x1100FFFF00000000 :: motorInputs 1 s.params.epu 0 ++ [] := by
  refine ⟨{ State.reset with inputs := .offer 0x1100FFFF00000000 :: motorInputs 1 8 0 ++ [] },
    ⟨?_, rfl⟩, by decide, by decide, by decide, by decide, by decide, by decide, rfl⟩
  have h := inv_reset
  cases h; constructor <;> assumption
/-- Each of the four clauses: a tick, no tick, the end in MEASURE and the end in a motor command. -/
theorem witness_WaitCountsTicks :
    (let s := seeing (driveWaiting .forward 255 1 8 1000) .tick
     s.Inv ∧ s.waiting = true ∧ s.input.rst = false ∧ s.dlyCnt ≠ 0 ∧ s.input.tickUs = true) ∧
    (let s := pollWaiting 1
     s.Inv ∧ s.waiting = true ∧ s.input.rst = false ∧ s.dlyCnt ≠ 0 ∧ s.input.tickUs = false) ∧
    (let s := pollWaiting 0
     s.Inv ∧ s.waiting = true ∧ s.input.rst = false ∧ s.dlyCnt = 0 ∧ s.curOp = .measure) ∧
    (let s := driveWaiting .backward (-255) 1 1 0
     s.Inv ∧ s.waiting = true ∧ s.input.rst = false ∧ s.dlyCnt = 0 ∧ s.curOp ≠ .measure) :=
  ⟨⟨inv_seeing inv_driveWaiting.1 _, by decide⟩, ⟨inv_pollWaiting.2, by decide⟩, ⟨inv_pollWaiting.1, by decide⟩,
    inv_driveWaiting.2, by decide⟩
theorem witness_HangsAreKept :
    ((loadFlight 0).Inv ∧ (loadFlight 0).flight ≠ none ∧ (loadFlight 0).inputs = []) ∧
    ((pollWaiting 1).Inv ∧ (pollWaiting 1).waiting = true ∧ (pollWaiting 1).dlyCnt ≠ 0 ∧ (pollWaiting 1).inputs = []) ∧
    ∃ s : State, s.Inv ∧ s.mstate = .polling ∧ s.flight = none ∧ s.waiting = false ∧
      (∀ p ∈ [(0, (0x08 : BitVec 24)), (1, 0xFF)], measuring p.2 = true) ∧
      s.inputs = pollInputs s.params.pollIntervalUs.toNat [(0, 0x08), (1, 0xFF)] ++ [] := by
  refine ⟨⟨inv_loadFlight_ends.1, by decide⟩, ⟨inv_pollWaiting.2, by decide⟩,
    { measuringIn .polling .pressure with inputs := pollInputs 0 [(0, 0x08), (1, 0xFF)] ++ [] },
    ?_, rfl, rfl, rfl, by decide, rfl⟩
  have h := inv_measure_polling.1
  cases h; constructor <;> assumption
/-- A reset in the middle of a motor command, and an idle edge. -/
theorem witness_ResetEdgeRestoresTheResetValues :
    (seeing (driving .forward 255 1 8) .reset).input.rst = true ∧
    (State.reset.busy = false ∧ State.reset.input.rst = false ∧ State.reset.input.cmdValid = false) := by decide
theorem witness_StepKeepsTheInvariant : (driving .forward 255 1 0).Inv ∧ ∃ s', step (driving .forward 255 1 0) = .next s' :=
  ⟨inv_driving.2.2.1, _, rfl⟩
theorem witness_InvariantStatesNeverStop : (engineAt 22).Inv ∧ (driving .backward 256 512 0).Inv :=
  ⟨inv_engine.2.1, inv_driving.2.2.2.1⟩
theorem witness_CalibrationIsImmutableOnceValid :
    (seeing loaded (.offer 0x0100000000000000)).Inv ∧ loaded.calValid = true ∧
    (seeing loaded (.offer 0x0100000000000000)).input.rst = false ∧
    ∃ s', step (seeing loaded (.offer 0x0100000000000000)) = .next s' :=
  ⟨inv_seeing inv_loaded _, by decide, by decide, _, rfl⟩
/-- A step that writes nothing, at the micro-step before the commit, and one before E2. -/
theorem witness_ResultsChangeOnlyAtCommit :
    (engineAt 21).input.rst = false ∧ (∃ s', step (engineAt 21) = .next s') ∧
    ¬ ((engineAt 21).busy = true ∧ (engineAt 21).engPhase = .running ∧ (engineAt 21).engStep = 22) ∧
    ¬ ((engineAt 21).busy = true ∧ (engineAt 21).engPhase = .running ∧ (engineAt 21).engStep = 2) :=
  ⟨by decide, ⟨_, rfl⟩, by decide, by decide⟩
theorem witness_PositionChangesOnlyAtUnitEnds :
    (let s := driving .forward 255 1 0
     s.Inv ∧ s.input.rst = false ∧ (nextOf (step s)).any (fun s' => s'.pos != s.pos) = true) ∧
    (loadFlight 0).Inv ∧ ¬ (loadFlight 0).motorRunning :=
  ⟨⟨inv_driving.2.2.1, by decide, by decide⟩, inv_loadFlight_ends.1, by decide⟩
theorem witness_CommandsTouchOnlyTheirOwnState :
    (let s := seeing (loadFlight 16) (.answer 0xFFFFFF)
     s.Inv ∧ s.busy = true ∧ s.input.rst = false ∧ s.curOp = .loadCal ∧ ∃ s', step s = .next s') ∧
    (let s := engineAt 22
     s.Inv ∧ s.busy = true ∧ s.input.rst = false ∧ s.curOp = .measure ∧ ∃ s', step s = .next s') ∧
    (let s := driving .forward 255 1 0
     s.Inv ∧ s.busy = true ∧ s.input.rst = false ∧ s.motorRunning ∧ ∃ s', step s = .next s') :=
  ⟨⟨inv_seeing inv_loadFlight_ends.2 _, by decide, by decide, by decide, _, rfl⟩,
    ⟨inv_engine.2.1, by decide, by decide, by decide, _, rfl⟩,
    inv_driving.2.2.1, by decide, by decide, by decide, _, rfl⟩
/-- Each flag is seen to change: `busy` up and down, `cal_valid`, `res_valid`, `err`. -/
theorem witness_FlagsChangeOnlyAsListed :
    (nextOf (step (seeing State.reset (.offer 0x0100000000000000)))).map (·.busy) = some true ∧
    (nextOf (step (driving .forward 256 0 0))).map (·.busy) = some false ∧
    (nextOf (step (seeing (loadFlight 16) (.answer 0)))).map (·.calValid) = some true ∧
    (nextOf (step (engineAt 22))).map (·.resValid) = some true ∧
    (nextOf (step (seeing (loadFlight 0) .failure))).map (·.err) = some .busError := by decide
/-- A refusal and an acceptance, with the one event of each. -/
theorem witness_PortEventsAreRefusalOrAcceptance :
    (let s := seeing State.reset (.offer 0x0200000000000000)
     s.Inv ∧ s.busy = false ∧ s.input.rst = false ∧ s.input.cmdValid = true ∧
       (nextOf (step s)).map (stepEvents s) = some [.refused .calNotLoaded]) ∧
    (let s := seeing loaded (.offer 0x0200000000000000)
     s.Inv ∧ s.busy = false ∧ s.input.rst = false ∧ s.input.cmdValid = true ∧
       (nextOf (step s)).map (stepEvents s) = some [.accepted .measure]) :=
  ⟨⟨inv_seeing inv_reset _, by decide⟩, inv_seeing inv_loaded _, by decide⟩

end Sys2Proof.Tests
end

section
/-! The scope's statement: a fetched opcode-table word is executed by the next step (R3, log 13). -/

namespace Sys2Proof.Machine

/-! ### The edge after a fetch -/

/-- The fetched code is run at the next edge, whose input it brings; the inputs of `s` are those still to come. -/
theorem step_fetchCode {c : Code} {i : Instr} (s : State) (h : decode c = .ok i) :
    step (fetchCode s c) = exec i { fetchCode s c with inputs := s.inputs, done := false } := by
  cases c with
  | command w =>
    calc step (fetchCode s (.command w))
        _ = idleEdge (fetchCode s (.command w)).clockEdge (.offer w) := step_idle rfl rfl
        _ = exec i (fetchCode s (.command w)).clockEdge := idleEdge_legal rfl h
  | microStep k =>
    calc step (fetchCode s (.microStep k))
        _ = busyEdge (fetchCode s (.microStep k)).clockEdge .quiet := step_busy rfl rfl
        _ = exec i (fetchCode s (.microStep k)).clockEdge := busyEdge_running rfl h

/-! ### The opcode table's words -/

/-- A table word gives an instruction exactly when its bits are a code that the decoder accepts. -/
theorem decodeTableWord_eq_some_iff {nbits w : Nat} {i : Instr} :
    decodeTableWord nbits w = some i ↔ ∃ c, tableCode nbits w = some c ∧ decode c = .ok i := by
  unfold decodeTableWord
  cases tableCode nbits w with
  | none => simp
  | some c => cases hd : decode c <;> simp [hd, Except.toOption]

/-- A table word that is a code fetches that code. -/
theorem withFetchWord_eq_fetchCode {nbits w : Nat} {c : Code} (s : State) (h : tableCode nbits w = some c) :
    s.withFetchWord nbits w = fetchCode s c := by
  simp [State.withFetchWord, h]

/-- Settles O9: an accepted table word is the fetch of a code that decodes, and the edge after such a fetch runs it. -/
theorem fetchWordIsExecutedNext : Obligations.FetchWordIsExecutedNext := by
  intro nbits w i s h
  obtain ⟨c, hc, hd⟩ := decodeTableWord_eq_some_iff.mp h
  rw [withFetchWord_eq_fetchCode s hc]
  exact step_fetchCode s hd

end Sys2Proof.Machine
end

section
/-! What a step does from a state of the invariant, as three relations with one constructor for each event: the port of
the idle block (R90, R91), the engine (R203, R204) and the sequencer (R31). Every proof about a step takes its cases from
`step_cases_of_inv`. -/

namespace Sys2Proof.Machine

variable {s s' : State} {inp : PortIn}

/-! ### The events -/

/-- The operation of a motor command (R226, R230). -/
abbrev Op.isMotor (op : Op) : Prop := op = .rotateBy ∨ op = .rotateTo

theorem isMotor_ne {op : Op} (h : op.isMotor) : op ≠ .loadCal ∧ op ≠ .measure := by rcases h with rfl | rfl <;> simp

/-- A motor command of `units` units in direction `d` ends inside the motor's range (R227, R231). -/
def UnitsFit (s : State) (d : Dir) (units : Nat) : Prop :=
  match d with
  | .forward => s.position + units ≤ halfTurn s.params
  | .backward => -halfTurn s.params ≤ s.position - units

/-- `s` with the engine's registers of `w`: what a micro-step other than the commit can change (R24, R28, R32). -/
def State.withWork (s w : State) : State :=
  { s with
    tFine := w.tFine, v1 := w.v1, v2 := w.v2, acc := w.acc
    tW := w.tW, pW := w.pW, hW := w.hW, engStep := w.engStep }

/-- What an edge does to an idle block (R90, R91, R291). -/
inductive PortStep (inp : PortIn) (s : State) : State → Prop
  | rest : inp.cmdValid = false → PortStep inp s s
  | refused (c : CompletionCode) : inp.cmdValid = true → PortStep inp s (s.refuse c)
  | startLoad : inp.cmdValid = true → (∃ i, decode (.command inp.cmd) = .ok i) → s.calValid = false →
      PortStep inp s { s with busy := true, curOp := .loadCal, calIdx := 0 }
  | startMeasure : inp.cmdValid = true → (∃ i, decode (.command inp.cmd) = .ok i) → s.calValid = true →
      PortStep inp s { s with busy := true, curOp := .measure }
  | startMotor {op : Op} {d : Dir} {units : Nat} (delay : Nat) :
      inp.cmdValid = true → (∃ i, decode (.command inp.cmd) = .ok i) → op.isMotor → UnitsFit s d units →
      PortStep inp s (startMotor s op d units delay)

/-- What an edge does while the engine runs or has committed (R203, R204). -/
inductive EngineStep (s : State) : State → Prop
  | work (w : State) : s.engPhase = .running → s.engStep ≠ 22 → w.engStep.toNat ≤ 22 →
      (w.engStep = 11 → w.v1 ≠ 0) → EngineStep s (s.withWork w)
  | commit : s.engPhase = .running → s.engStep = 22 →
      EngineStep s { s with
        tRes := s.tW, pRes := s.pW, hRes := s.hW, resValid := true, engStep := 0, engPhase := .done }
  | finish : s.engPhase = .done → EngineStep s (finishMeasure s)

/-- What an edge does to a command in progress outside the engine: nothing while a wait or a transaction lasts, an edge
of a wait (R280), an answer (R60), or the next event of the command (R31). -/
inductive SequencerStep (s : State) : State → Prop
  | hold : SequencerStep s s
  | tick : s.waiting = true → s.dlyCnt ≠ 0 → SequencerStep s { s with dlyCnt := s.dlyCnt - 1 }
  | pollWaitOver : s.waiting = true → s.dlyCnt = 0 → s.curOp = .measure → SequencerStep s { s with waiting := false }
  | entryOver : s.waiting = true → s.dlyCnt = 0 → s.curOp.isMotor →
      SequencerStep s { s with waiting := false, entLeft := s.entLeft - 1 }
  | loadFailed : s.flight ≠ none → s.curOp = .loadCal →
      SequencerStep s ({ s.endTransaction with calIdx := 0 }.complete .busError)
  | measureFailed : s.flight ≠ none → s.curOp = .measure →
      SequencerStep s ({ s.endTransaction with mstate := .idle, rdIdx := .pressure }.complete .busError)
  | calRow (r : BitVec 24) : s.flight ≠ none → s.curOp = .loadCal → s.calIdx ≠ 16 →
      SequencerStep s { s.endTransaction with cal := writeCalRow s.calIdx r s.cal, calIdx := s.calIdx + 1 }
  | calEnd (r : BitVec 24) : s.flight ≠ none → s.curOp = .loadCal → s.calIdx = 16 →
      SequencerStep s
        ({ s.endTransaction with cal := writeCalRow s.calIdx r s.cal, calValid := true, calIdx := 0 }.complete .ok)
  | triggered : s.flight ≠ none → s.curOp = .measure → s.mstate = .idle →
      SequencerStep s { s.endTransaction with mstate := .triggered }
  | stillMeasuring : s.flight ≠ none → s.curOp = .measure → s.mstate = .polling →
      SequencerStep s (s.endTransaction.startWait s.params.pollIntervalUs)
  | measured : s.flight ≠ none → s.curOp = .measure → s.mstate = .polling →
      SequencerStep s { s.endTransaction with mstate := .ready }
  | pressureRead (r : BitVec 24) : s.flight ≠ none → s.curOp = .measure → s.mstate = .ready → s.rdIdx = .pressure →
      SequencerStep s { s.endTransaction with adcP := be20 r, rdIdx := .temperature }
  | temperatureRead (r : BitVec 24) : s.flight ≠ none → s.curOp = .measure → s.mstate = .ready →
      s.rdIdx = .temperature → SequencerStep s { s.endTransaction with adcT := be20 r, rdIdx := .humidity }
  | humidityRead (r : BitVec 24) : s.flight ≠ none → s.curOp = .measure → s.mstate = .ready →
      s.rdIdx = .humidity → SequencerStep s { s.endTransaction with
        adcH := be16 r, rdIdx := .pressure, engStep := 0, engPhase := .running }
  | issue (t : Transaction) : s.waiting = false → s.flight = none → nextRequest s = some t →
      SequencerStep s (s.issue t)
  | leaveTriggered : s.waiting = false → s.flight = none → s.curOp = .measure → s.mstate = .triggered →
      SequencerStep s { s with mstate := .polling }
  | motorDone : s.waiting = false → s.flight = none → s.curOp.isMotor → s.unitsLeft = 0 →
      SequencerStep s (s.complete .ok)
  | unitEnd : s.waiting = false → s.flight = none → s.curOp.isMotor → s.unitsLeft ≠ 0 → s.entLeft = 0 →
      SequencerStep s (endUnit s)
  | activation : s.waiting = false → s.flight = none → s.curOp.isMotor → s.unitsLeft ≠ 0 → s.entLeft ≠ 0 →
      SequencerStep s (activate s)

/-! ### The port -/

theorem rotateBy_unitsFit (h : -halfTurn s.params ≤ s.position ∧ s.position ≤ halfTurn s.params) (cw : Bool)
    (angle : Nat) : UnitsFit s (cwDir cw) (rotateByUnits s.params s.position cw angle) := by
  cases cw <;> simp only [UnitsFit, cwDir, rotateByUnits] <;> grind

/-- `tc` is at most half a turn either way, so ROTATE_TO ends in the motor's range (R230, R231). -/
theorem rotateTo_unitsFit (h : -halfTurn s.params ≤ s.position ∧ s.position ≤ halfTurn s.params) (target : Int) :
    UnitsFit s (rotateToDir s.params s.position target) (rotateToUnits s.params s.position target) := by
  have ⟨hlo, hhi⟩ := clamp_within target (show (-180 : Int) ≤ 180 by decide)
  have hmin : -180 * (s.params.res : Int) ≤ clampTarget target * s.params.res :=
    mul_le_mul_of_nonneg_right hlo (by positivity)
  have hmax : clampTarget target * s.params.res ≤ 180 * (s.params.res : Int) :=
    mul_le_mul_of_nonneg_right hhi (by positivity)
  unfold halfTurn at h
  cases hd : rotateToDir s.params s.position target <;>
    simp only [UnitsFit, rotateToUnits, rotateToEnd, hd, floorDiv, ceilDiv, halfTurn] <;> omega

/-- A motor command taken by an idle block starts. -/
theorem startMotor_portStep {op : Op} {d : Dir} {units delay : Nat} (hb : s.busy = false) (hv : inp.cmdValid = true)
    (hd : ∃ i, decode (.command inp.cmd) = .ok i) (hop : op.isMotor) (hu : UnitsFit s d units)
    (h : takeCommand s none (startMotor s op d units delay) = .next s') : PortStep inp s s' := by
  rw [takeCommand_started hb] at h
  cases h
  exact .startMotor delay hv hd hop hu

/-- A legal command word at the port of an idle block is refused or starts its command. -/
theorem exec_portStep {i : Instr} (hi : s.Inv) (hb : s.busy = false) (hv : inp.cmdValid = true)
    (hd : decode (.command inp.cmd) = .ok i) (h : exec i s = .next s') : PortStep inp s s' := by
  have hcmd : i.isCommand = true := decodeCommand_isCommand hd
  have hex : ∃ i, decode (.command inp.cmd) = .ok i := ⟨i, hd⟩
  have hpos := hi.pos_in_range
  cases i with
  | loadCal =>
    rcases takeCommand_cases s _ _ with ⟨hb', -⟩ | ⟨c, -, -, he⟩ | ⟨-, hc, he⟩
    · simp [hb] at hb'
    · cases he.symm.trans h; exact .refused c hv
    · cases he.symm.trans h; exact .startLoad hv hex (by simpa using hc)
  | measure =>
    rcases takeCommand_cases s _ _ with ⟨hb', -⟩ | ⟨c, -, -, he⟩ | ⟨-, hc, he⟩
    · simp [hb] at hb'
    · cases he.symm.trans h; exact .refused c hv
    · cases he.symm.trans h; exact .startMeasure hv hex (by simpa using hc)
  | rotateBy cw angle delay => exact startMotor_portStep hb hv hex (.inl rfl) (rotateBy_unitsFit hpos cw angle) h
  | rotateTo target delay => exact startMotor_portStep hb hv hex (.inr rfl) (rotateTo_unitsFit hpos target) h
  | nudgeCw delay => exact startMotor_portStep hb hv hex (.inl rfl) (rotateBy_unitsFit hpos true 1) h
  | nudgeCcw delay => exact startMotor_portStep hb hv hex (.inl rfl) (rotateBy_unitsFit hpos false 1) h
  | _ => cases hcmd

/-! ### The engine -/

/-- A micro-step that writes engine registers and advances `eng_step` is work of the engine. E10 is left out, because
only it comes to E11. -/
theorem microStep_engineStep {w : State} {k : MicroStepCode} (hp : s.engPhase = .running) (hk : k = s.engStep)
    (h22 : k.toNat < 22) (h10 : k ≠ 10) (h : microStep w = .next s') (hw : w = s.withWork w)
    (hstep : w.engStep = s.engStep) : EngineStep s s' := by
  cases h
  have hadv : w.advanceEngine = s.withWork w.advanceEngine := congrArg State.advanceEngine hw
  rw [hadv]
  refine .work _ hp (by rintro h; simp [hk, h] at h22) ?_ ?_ <;> rw [State.advanceEngine_engStep, hstep, ← hk]
  · bv_omega
  · intro h11
    exact absurd (by bv_omega) h10

/-- The micro-step that `eng_step` names is work of the engine, or the commit. -/
theorem exec_engineStep {i : Instr} (hp : s.engPhase = .running) (hd : decode (.microStep s.engStep) = .ok i)
    (h : exec i s = .next s') : EngineStep s s' := by
  have hd' : decodeMicroStep s.engStep = .ok i := hd
  have he : encode i = .microStep s.engStep := by
    simpa [hd', Except.toOption] using encode_decodeMicroStep s.engStep
  cases i with
  | loadCal | measure | rotateBy | rotateTo | nudgeCw | nudgeCcw => cases he
  | e10 =>
    have hk : s.engStep = 10 := (Code.microStep.inj he).symm
    have hne : s.engStep ≠ 22 := by simp [hk]
    rcases execE10_cases s with ⟨-, hx⟩ | ⟨hv, hx⟩ <;> cases hx.symm.trans h
    · exact .work { s with pW := 0, engStep := 16 } hp hne (show 16 ≤ 22 by decide) (fun h => nomatch h)
    · exact .work { s with acc := 1048576 - s.rawP, engStep := 11 } hp hne (show 11 ≤ 22 by decide) fun _ => hv
  | e22 => cases h; exact .commit hp (Code.microStep.inj he).symm
  | _ => exact microStep_engineStep hp (Code.microStep.inj he) (by decide) (by decide) h rfl rfl

/-! ### The sequencer -/

theorem rawAnswered_pressure (h : s.rdIdx = .pressure) (r : BitVec 24) :
    rawAnswered s r = { s with adcP := be20 r, rdIdx := .temperature } := by simp [rawAnswered, h]

theorem rawAnswered_temperature (h : s.rdIdx = .temperature) (r : BitVec 24) :
    rawAnswered s r = { s with adcT := be20 r, rdIdx := .humidity } := by simp [rawAnswered, h]

theorem rawAnswered_humidity (h : s.rdIdx = .humidity) (r : BitVec 24) :
    rawAnswered s r = { s with adcH := be16 r, rdIdx := .pressure, engStep := 0, engPhase := .running } := by
  simp [rawAnswered, h]

theorem measureAnswered_idle (h : s.mstate = .idle) (r : BitVec 24) :
    measureAnswered s r = { s with mstate := .triggered } := by simp [measureAnswered, h]

theorem measureAnswered_polling (h : s.mstate = .polling) (r : BitVec 24) :
    measureAnswered s r = statusAnswered s r := by simp [measureAnswered, h]

theorem measureAnswered_ready (h : s.mstate = .ready) (r : BitVec 24) :
    measureAnswered s r = rawAnswered s r := by simp [measureAnswered, h]

theorem receive_loadCal (h : s.curOp = .loadCal) (r : BitVec 24) :
    receive s false r = calAnswered s.endTransaction r := by simp [receive, h]

theorem receive_measure (h : s.curOp = .measure) (r : BitVec 24) :
    receive s false r = measureAnswered s.endTransaction r := by simp [receive, h]

theorem receive_loadCal_failed (h : s.curOp = .loadCal) (r : BitVec 24) :
    receive s true r = { s.endTransaction with calIdx := 0 }.complete .busError :=
  raiseBusError_loadCal (s := s.endTransaction) h

theorem receive_measure_failed (h : s.curOp = .measure) (r : BitVec 24) :
    receive s true r = { s.endTransaction with mstate := .idle, rdIdx := .pressure }.complete .busError :=
  raiseBusError_measure (s := s.endTransaction) h

theorem internalAdvance_measure (h : s.curOp = .measure) : internalAdvance s = { s with mstate := .polling } := by
  simp [internalAdvance, h]

theorem internalAdvance_motor (h : s.curOp.isMotor) : internalAdvance s = motorAdvance s := by
  rcases h with h | h <;> simp [internalAdvance, h]

/-- Only Triggered and the motor commands have no transaction to make next (R195, R238). -/
theorem nextRequest_eq_none_iff :
    nextRequest s = none ↔ (s.curOp = .measure ∧ s.mstate = .triggered) ∨ s.curOp.isMotor := by
  cases hop : s.curOp with
  | measure => cases hm : s.mstate <;> simp [nextRequest, measureRequest, Op.isMotor, hop, hm]
  | _ => simp [nextRequest, Op.isMotor, hop]

/-- A transaction is in flight only while the command has one to make. -/
theorem State.Inv.nextRequest_ne_none (h : s.Inv) (hf : s.flight ≠ none) : nextRequest s ≠ none := by
  obtain ⟨t, ht⟩ := Option.ne_none_iff_exists'.mp hf
  simp [(h.flight_is_due t ht).2]

theorem State.Inv.curOp_of_flight (h : s.Inv) (hf : s.flight ≠ none) : s.curOp = .loadCal ∨ s.curOp = .measure := by
  have hn := mt nextRequest_eq_none_iff.mpr (h.nextRequest_ne_none hf)
  cases hop : s.curOp <;> simp [hop] at hn ⊢

theorem waitEdge_sequencerStep (h : s.Inv) (hw : s.waiting = true) (tick : Bool) :
    SequencerStep s (s.waitEdge tick) := by
  rcases waitEdge_cases s tick with ⟨hz, he⟩ | ⟨hz, -, he⟩ | ⟨-, -, he⟩ <;> rw [he]
  · obtain ⟨-, -, ⟨hop, -⟩ | ⟨⟨-, hop⟩, -⟩⟩ := h.wait_has_owner hw
    · rw [endWait_measure hop]; exact .pollWaitOver hw hz hop
    · rw [endWait_motor hop]; exact .entryOver hw hz hop
  · exact .tick hw hz
  · exact .hold

theorem rawAnswered_sequencerStep (hf : s.flight ≠ none) (hop : s.curOp = .measure) (hm : s.mstate = .ready)
    (r : BitVec 24) : SequencerStep s (rawAnswered s.endTransaction r) := by
  cases hg : s.rdIdx with
  | pressure => exact rawAnswered_pressure (s := s.endTransaction) hg r ▸ .pressureRead r hf hop hm hg
  | temperature => exact rawAnswered_temperature (s := s.endTransaction) hg r ▸ .temperatureRead r hf hop hm hg
  | humidity => exact rawAnswered_humidity (s := s.endTransaction) hg r ▸ .humidityRead r hf hop hm hg

theorem measureAnswered_sequencerStep (h : s.Inv) (hf : s.flight ≠ none) (hop : s.curOp = .measure) (r : BitVec 24) :
    SequencerStep s (measureAnswered s.endTransaction r) := by
  cases hm : s.mstate with
  | idle => exact measureAnswered_idle (s := s.endTransaction) hm r ▸ .triggered hf hop hm
  | triggered => exact absurd (nextRequest_eq_none_iff.mpr (.inl ⟨hop, hm⟩)) (h.nextRequest_ne_none hf)
  | polling =>
    rw [measureAnswered_polling (s := s.endTransaction) hm]
    rcases statusAnswered_cases s.endTransaction r with ⟨-, he⟩ | ⟨-, he⟩ <;> rw [he]
    · exact .stillMeasuring hf hop hm
    · exact .measured hf hop hm
  | ready => exact measureAnswered_ready (s := s.endTransaction) hm r ▸ rawAnswered_sequencerStep hf hop hm r

theorem receive_sequencerStep (h : s.Inv) (hf : s.flight ≠ none) (failed : Bool) (r : BitVec 24) :
    SequencerStep s (receive s failed r) := by
  rcases h.curOp_of_flight hf with hop | hop <;> cases failed
  · rw [receive_loadCal hop]
    rcases calAnswered_cases s.endTransaction r with ⟨hi, he⟩ | ⟨hi, he⟩ <;> rw [he]
    · exact .calEnd r hf hop hi
    · exact .calRow r hf hop hi
  · exact receive_loadCal_failed hop r ▸ .loadFailed hf hop
  · exact receive_measure hop r ▸ measureAnswered_sequencerStep h hf hop r
  · exact receive_measure_failed hop r ▸ .measureFailed hf hop

theorem internalAdvance_sequencerStep (hw : s.waiting = false) (hf : s.flight = none) (hreq : nextRequest s = none) :
    SequencerStep s (internalAdvance s) := by
  rcases nextRequest_eq_none_iff.mp hreq with ⟨hop, hm⟩ | hop
  · rw [internalAdvance_measure hop]
    exact .leaveTriggered hw hf hop hm
  · rw [internalAdvance_motor hop]
    rcases motorAdvance_cases s with ⟨hu, he⟩ | ⟨hu, hn, he⟩ | ⟨hu, hn, he⟩ <;> rw [he]
    · exact .motorDone hw hf hop hu
    · exact .unitEnd hw hf hop hu hn
    · exact .activation hw hf hop hu hn

theorem sequenceAdvance_sequencerStep (hw : s.waiting = false) (hf : s.flight = none) :
    SequencerStep s (sequenceAdvance s) := by
  rcases sequenceAdvance_cases s with ⟨t, hreq, he⟩ | ⟨hreq, he⟩ <;> rw [he]
  · exact .issue t hw hf hreq
  · exact internalAdvance_sequencerStep hw hf hreq

theorem sequenceEdge_sequencerStep (h : s.Inv) (inp : PortIn) : SequencerStep s (sequenceEdge s inp) := by
  rcases sequenceEdge_cases s inp with ⟨hw, he⟩ | ⟨-, hf, -, he⟩ | ⟨-, -, -, he⟩ | ⟨hw, hf, he⟩ <;> rw [he]
  · exact waitEdge_sequencerStep h hw _
  · exact receive_sequencerStep h hf _ _
  · exact .hold
  · exact sequenceAdvance_sequencerStep hw hf

/-! ### The step -/

/-- An edge uses up its input and ends the `done` pulse: the invariant does not speak of either. -/
theorem State.Inv.clockEdge (h : s.Inv) : s.clockEdge.Inv := { h with done_when_idle := nofun }

/-- Everything a step without reset can do from a state of the invariant. -/
theorem step_cases_of_inv (h : s.Inv) (hr : s.input.rst = false) (hs : step s = .next s') :
    (s.busy = false ∧ PortStep s.input s.clockEdge s') ∨
    (s.busy = true ∧ EngineStep s.clockEdge s') ∨
    (s.busy = true ∧ s.engPhase = .off ∧ SequencerStep s.clockEdge s') := by
  rcases step_cases s with ⟨hr', -⟩ | ⟨-, hb, hv, he⟩ | ⟨-, hb, hv, e, -, he⟩ | ⟨-, hb, hv, i, hd, he⟩ |
    ⟨-, hb, hp, i, hd, he⟩ | ⟨-, -, -, e, -, he⟩ | ⟨-, hb, hp, he⟩ | ⟨-, hb, hp, he⟩
  · simp [hr] at hr'
  · cases he.symm.trans hs
    exact .inl ⟨hb, .rest hv⟩
  · cases he.symm.trans hs
    exact .inl ⟨hb, .refused _ hv⟩
  · exact .inl ⟨hb, exec_portStep h.clockEdge hb hv hd (he.symm.trans hs)⟩
  · exact .inr (.inl ⟨hb, exec_engineStep hp hd (he.symm.trans hs)⟩)
  · cases he.symm.trans hs
  · cases he.symm.trans hs
    exact .inr (.inl ⟨hb, .finish hp⟩)
  · cases he.symm.trans hs
    exact .inr (.inr ⟨hb, hp, sequenceEdge_sequencerStep h.clockEdge _⟩)

end Sys2Proof.Machine
end

section
/-! The invariant is kept: each event of the port, of the engine and of the sequencer leads from a state of it to one
(R22, R30, R32, R34, R35, R77, R162, R191). A proof by `{ h with … }` names the parts of the invariant that speak of what
the event changes; the others are those of the state before. -/

namespace Sys2Proof.Machine

variable {s s' : State} {inp : PortIn}

/-! ### Consequences of the invariant -/

namespace State.Inv

theorem mstate_eq_idle (h : s.Inv) (hop : s.curOp ≠ .measure) : s.mstate = .idle :=
  not_not.mp fun hm => hop (h.mstate_only_in_measure hm).2

theorem calIdx_eq_zero (h : s.Inv) (hop : s.curOp ≠ .loadCal) : s.calIdx = 0 :=
  not_not.mp fun hi => hop (h.cal_idx_only_in_load hi).2

theorem rdIdx_eq_pressure (h : s.Inv) (hm : s.mstate ≠ .ready ∨ s.engPhase ≠ .off) : s.rdIdx = .pressure :=
  not_not.mp fun hr => hm.elim (· (h.rd_idx_only_in_ready hr).1) (· (h.rd_idx_only_in_ready hr).2)

theorem unitsLeft_eq_zero (h : s.Inv) (hm : ¬ s.motorRunning) : s.unitsLeft = 0 :=
  not_not.mp fun hu => hm (h.units_only_in_motor (.inl hu))

theorem entLeft_eq_zero (h : s.Inv) (hm : ¬ s.motorRunning) : s.entLeft = 0 :=
  not_not.mp fun he => hm (h.units_only_in_motor (.inr he))

theorem waiting_eq_false (h : s.Inv) (hf : s.flight ≠ none) : s.waiting = false :=
  Bool.eq_false_of_not_eq_true fun hw => hf (h.wait_has_owner hw).2.1

theorem curOp_eq_measure (h : s.Inv) (hp : s.engPhase ≠ .off) : s.curOp = .measure :=
  (h.mstate_only_in_measure (by simp [(h.engine_only_in_ready hp).1])).2

end State.Inv

theorem not_motorRunning_of_idle (hb : s.busy = false) : ¬ s.motorRunning := by simp [State.motorRunning, hb]

theorem not_motorRunning_of_loadCal (hop : s.curOp = .loadCal) : ¬ s.motorRunning := by simp [State.motorRunning, hop]

theorem not_motorRunning_of_measure (hop : s.curOp = .measure) : ¬ s.motorRunning := by simp [State.motorRunning, hop]

/-! ### A block at rest -/

/-- The sequencing registers of a block with nothing under way (R47, R291). -/
structure State.AtRest (s : State) : Prop where
  busy : s.busy = false
  mstate : s.mstate = .idle
  calIdx : s.calIdx = 0
  rdIdx : s.rdIdx = .pressure
  engStep : s.engStep = 0
  engPhase : s.engPhase = .off
  unitsLeft : s.unitsLeft = 0
  entLeft : s.entLeft = 0
  waiting : s.waiting = false
  dlyCnt : s.dlyCnt = 0
  flight : s.flight = none

/-- Without units left a motor is where it is going. -/
theorem destination_of_no_units (h : s.unitsLeft = 0) : s.destination = s.position := by
  unfold State.destination
  cases s.dir <;> simp [h]

/-- At rest the invariant says no more than that the parameters are legal, `pos` is in range and a result needs a loaded
calibration. -/
theorem State.AtRest.inv (h : s.AtRest) (hwf : s.params.wf)
    (hpos : -halfTurn s.params ≤ s.position ∧ s.position ≤ halfTurn s.params)
    (hres : s.resValid = true → s.calValid = true) : s.Inv where
  params_legal := hwf
  pos_in_range := hpos
  destination_in_range := by rwa [destination_of_no_units h.unitsLeft]
  eng_step_numbered := by simp [h.engStep]
  idle_at_rest := fun _ => ⟨h.mstate, h.flight, h.waiting, h.engPhase⟩
  mstate_only_in_measure := fun hm => absurd h.mstate hm
  cal_idx_only_in_load := fun hi => absurd h.calIdx hi
  rd_idx_only_in_ready := fun hr => absurd h.rdIdx hr
  engine_only_in_ready := fun hp => absurd h.engPhase hp
  eng_step_rests_at_zero := fun _ => h.engStep
  divisor_nonzero := by simp [h.engPhase]
  measure_after_load := by simp [h.busy]
  load_once := by simp [h.busy]
  result_after_load := hres
  no_count_outside_wait := fun _ => h.dlyCnt
  wait_has_owner := by simp [h.waiting]
  flight_is_due := by simp [h.flight]
  units_only_in_motor := by simp [h.unitsLeft, h.entLeft]
  entries_of_a_unit := fun he => absurd h.entLeft he
  entries_at_most_epu := by simp [h.entLeft]
  done_when_idle := fun _ => h.busy

/-- Settles O52: a block right after reset is at rest, with `pos` at 0 and no result. -/
theorem resetSatisfiesTheInvariant : Obligations.ResetSatisfiesTheInvariant :=
  State.AtRest.inv (by constructor <;> rfl) (by decide) (by decide) (by decide)

/-- The invariant after a reset needs no more than legal parameters. -/
theorem inv_resetEdge (h : s.params.wf) : s.resetEdge.Inv :=
  State.AtRest.inv (by constructor <;> rfl) h
    ⟨neg_nonpos_of_nonneg (halfTurn_nonneg _), halfTurn_nonneg _⟩ (fun hres => nomatch hres)

/-! ### The port -/

/-- A motor command that fits the range fits `units_left` (R30, R34). -/
theorem UnitsFit.lt {d : Dir} {units : Nat} (hu : UnitsFit s d units) (h : s.Inv) : units < 2 ^ 16 := by
  have hhalf := halfTurn_le h.params_legal
  have ⟨hlo, hhi⟩ := h.pos_in_range
  cases d <;> simp only [UnitsFit] at hu <;> omega

theorem UnitsFit.toNat_ofNat {d : Dir} {units : Nat} (hu : UnitsFit s d units) (h : s.Inv) :
    (BitVec.ofNat 16 units).toNat = units := by
  rw [BitVec.toNat_ofNat, Nat.mod_eq_of_lt (hu.lt h)]

theorem toNat_ofNat_epu {p : Params} (h : p.wf) : (BitVec.ofNat 4 p.epu).toNat = p.epu := by
  obtain ⟨-, -, -, hepu⟩ := h
  rw [BitVec.toNat_ofNat, Nat.mod_eq_of_lt (by omega)]

theorem destination_startMotor {op : Op} {d : Dir} {units delay : Nat} (h : s.Inv) (hu : UnitsFit s d units) :
    -halfTurn s.params ≤ (startMotor s op d units delay).destination ∧
      (startMotor s op d units delay).destination ≤ halfTurn s.params := by
  have ⟨hlo, hhi⟩ := h.pos_in_range
  have hn := hu.toNat_ofNat h
  cases d with
  | forward =>
    change -halfTurn s.params ≤ s.position + (BitVec.ofNat 16 units).toNat ∧
      s.position + (BitVec.ofNat 16 units).toNat ≤ halfTurn s.params
    rw [hn]
    exact ⟨by omega, hu⟩
  | backward =>
    change -halfTurn s.params ≤ s.position - (BitVec.ofNat 16 units).toNat ∧
      s.position - (BitVec.ofNat 16 units).toNat ≤ halfTurn s.params
    rw [hn]
    exact ⟨hu, by omega⟩

/-- A command starts at a block at rest: nothing is under way yet, and its admission test holds (R121, R192). -/
theorem inv_started {op : Op} {i : Fin 17} (h : s.Inv) (hb : s.busy = false) (hd : s.done = false) (hi : i = 0)
    (hload : op = .loadCal → s.calValid = false) (hmeasure : op = .measure → s.calValid = true) :
    { s with busy := true, curOp := op, calIdx := i }.Inv := by
  obtain ⟨hm, hf, hw, -⟩ := h.idle_at_rest hb
  have hleft : ¬ (s.unitsLeft ≠ 0 ∨ s.entLeft ≠ 0) := not_motorRunning_of_idle hb ∘ h.units_only_in_motor
  exact { h with
    idle_at_rest := nofun
    mstate_only_in_measure := fun hm' => absurd hm hm'
    cal_idx_only_in_load := fun hi' => absurd hi hi'
    measure_after_load := fun _ => hmeasure
    load_once := fun _ => hload
    wait_has_owner := fun hw' => nomatch hw.symm.trans hw'
    flight_is_due := fun _ ht => nomatch hf.symm.trans ht
    units_only_in_motor := fun hleft' => absurd hleft' hleft
    done_when_idle := fun hd' => nomatch hd.symm.trans hd' }

theorem inv_startMotor {op : Op} {d : Dir} {units delay : Nat} (h : s.Inv) (hb : s.busy = false) (hd : s.done = false)
    (hi : s.calIdx = 0) (hop : op.isMotor) (hu : UnitsFit s d units) : (startMotor s op d units delay).Inv := by
  have hw := (h.idle_at_rest hb).2.2.1
  have hn := hu.toNat_ofNat h
  have hepu := toNat_ofNat_epu h.params_legal
  exact { inv_started h hb hd hi (absurd · (isMotor_ne hop).1) (absurd · (isMotor_ne hop).2) with
    destination_in_range := destination_startMotor (s := s) h hu
    wait_has_owner := fun hw' => nomatch hw.symm.trans hw'
    units_only_in_motor := fun _ => ⟨rfl, hop⟩
    entries_of_a_unit := fun he hz => he (if_pos (by simpa [startMotor, hn] using congrArg BitVec.toNat hz))
    entries_at_most_epu := by simp only [startMotor]; split <;> simp [hepu] }

theorem PortStep.inv (hs : PortStep inp s s') (h : s.Inv) (hb : s.busy = false) (hd : s.done = false) : s'.Inv := by
  have hi : s.calIdx = 0 := not_not.mp fun hi => nomatch hb.symm.trans (h.cal_idx_only_in_load hi).1
  cases hs with
  | rest => exact h
  | refused c => exact { h with done_when_idle := fun _ => hb }
  | startLoad _ _ hv => exact inv_started h hb hd rfl (fun _ => hv) nofun
  | startMeasure _ _ hv => exact inv_started h hb hd hi nofun (fun _ => hv)
  | startMotor delay _ _ hop hu => exact inv_startMotor h hb hd hi hop hu

/-! ### The engine -/

theorem EngineStep.inv (hs : EngineStep s s') (h : s.Inv) (hb : s.busy = true) : s'.Inv := by
  cases hs with
  | work w hp _ hle hdiv =>
    exact { h with
      eng_step_numbered := hle
      eng_step_rests_at_zero := fun hn => absurd hp hn
      divisor_nonzero := fun _ => hdiv }
  | commit hp hk =>
    have hne : s.engPhase ≠ .off := by simp [hp]
    exact { h with
      eng_step_numbered := Nat.zero_le _
      idle_at_rest := fun hb' => nomatch hb.symm.trans hb'
      rd_idx_only_in_ready := fun hr => absurd (h.rdIdx_eq_pressure (.inr hne)) hr
      engine_only_in_ready := fun _ => h.engine_only_in_ready hne
      eng_step_rests_at_zero := fun _ => rfl
      divisor_nonzero := nofun
      result_after_load := fun _ => h.measure_after_load hb (h.curOp_eq_measure hne) }
  | finish hp =>
    have hne : s.engPhase ≠ .off := by simp [hp]
    have hop := h.curOp_eq_measure hne
    obtain ⟨-, hf, hw⟩ := h.engine_only_in_ready hne
    exact State.AtRest.inv
      { busy := rfl, mstate := rfl, engPhase := rfl, waiting := rfl, flight := hf
        calIdx := h.calIdx_eq_zero (by simp [hop])
        rdIdx := h.rdIdx_eq_pressure (.inr hne)
        engStep := h.eng_step_rests_at_zero (by simp [hp])
        unitsLeft := h.unitsLeft_eq_zero (not_motorRunning_of_measure hop)
        entLeft := h.entLeft_eq_zero (not_motorRunning_of_measure hop)
        dlyCnt := h.no_count_outside_wait hw }
      h.params_legal h.pos_in_range h.result_after_load

/-! ### The sequencer: waits, transactions and MEASURE -/

/-- A transaction of LOAD_CAL that ends the command, by a failure or after row 16, leaves the block at rest. -/
theorem inv_loadEnded (h : s.Inv) (hoff : s.engPhase = .off) (hf : s.flight ≠ none) (hop : s.curOp = .loadCal)
    (c : Cal) {v : Bool} (hv : s.resValid = true → v = true) (code : CompletionCode) :
    ({ s.endTransaction with cal := c, calValid := v, calIdx := 0 }.complete code).Inv :=
  have hm := h.mstate_eq_idle (by simp [hop])
  State.AtRest.inv
    { busy := rfl, mstate := hm, calIdx := rfl, engPhase := hoff, waiting := rfl, flight := rfl
      rdIdx := h.rdIdx_eq_pressure (by simp [hm])
      engStep := h.eng_step_rests_at_zero (by simp [hoff])
      unitsLeft := h.unitsLeft_eq_zero (not_motorRunning_of_loadCal hop)
      entLeft := h.entLeft_eq_zero (not_motorRunning_of_loadCal hop)
      dlyCnt := h.no_count_outside_wait (h.waiting_eq_false hf) }
    h.params_legal h.pos_in_range hv

theorem inv_measureFailed (h : s.Inv) (hoff : s.engPhase = .off) (hf : s.flight ≠ none) (hop : s.curOp = .measure) :
    ({ s.endTransaction with mstate := .idle, rdIdx := .pressure }.complete .busError).Inv :=
  State.AtRest.inv
    { busy := rfl, mstate := rfl, rdIdx := rfl, engPhase := hoff, waiting := rfl, flight := rfl
      calIdx := h.calIdx_eq_zero (by simp [hop])
      engStep := h.eng_step_rests_at_zero (by simp [hoff])
      unitsLeft := h.unitsLeft_eq_zero (not_motorRunning_of_measure hop)
      entLeft := h.entLeft_eq_zero (not_motorRunning_of_measure hop)
      dlyCnt := h.no_count_outside_wait (h.waiting_eq_false hf) }
    h.params_legal h.pos_in_range h.result_after_load

theorem inv_motorDone (h : s.Inv) (hoff : s.engPhase = .off) (hw : s.waiting = false) (hf : s.flight = none)
    (hop : s.curOp.isMotor) (hu : s.unitsLeft = 0) : (s.complete .ok).Inv :=
  have hm := h.mstate_eq_idle (isMotor_ne hop).2
  State.AtRest.inv
    { busy := rfl, mstate := hm, engPhase := hoff, waiting := rfl, flight := hf, unitsLeft := hu
      calIdx := h.calIdx_eq_zero (isMotor_ne hop).1
      rdIdx := h.rdIdx_eq_pressure (by simp [hm])
      engStep := h.eng_step_rests_at_zero (by simp [hoff])
      entLeft := not_not.mp fun he => h.entries_of_a_unit he hu
      dlyCnt := h.no_count_outside_wait hw }
    h.params_legal h.pos_in_range h.result_after_load

/-- The transaction of a command that goes on has ended. -/
theorem inv_endTransaction (h : s.Inv) (hb : s.busy = true) (hf : s.flight ≠ none) : s.endTransaction.Inv :=
  { h with
    idle_at_rest := fun hb' => nomatch hb.symm.trans hb'
    engine_only_in_ready := fun hp => absurd (h.engine_only_in_ready hp).2.1 hf
    wait_has_owner := fun hw => absurd (h.wait_has_owner hw).2.1 hf
    flight_is_due := nofun }

/-- MEASURE goes from one state to the next with nothing in flight and no wait. -/
theorem inv_setMstate (h : s.Inv) (hb : s.busy = true) (hoff : s.engPhase = .off) (hw : s.waiting = false)
    (hf : s.flight = none) (hop : s.curOp = .measure) (hm : s.mstate ≠ .ready) (m : MState) :
    { s with mstate := m }.Inv :=
  { h with
    idle_at_rest := fun hb' => nomatch hb.symm.trans hb'
    mstate_only_in_measure := fun _ => ⟨hb, hop⟩
    rd_idx_only_in_ready := fun hr => absurd (h.rdIdx_eq_pressure (.inl hm)) hr
    engine_only_in_ready := fun hp => absurd hoff hp
    wait_has_owner := fun hw' => nomatch hw.symm.trans hw'
    flight_is_due := fun _ ht => nomatch hf.symm.trans ht }

/-! ### The sequencer: the motor -/

theorem inv_entryOver (h : s.Inv) (hb : s.busy = true) (hw : s.waiting = true) (hz : s.dlyCnt = 0)
    (hop : s.curOp.isMotor) : { s with waiting := false, entLeft := s.entLeft - 1 }.Inv := by
  have ⟨hu, he⟩ : s.unitsLeft ≠ 0 ∧ s.entLeft ≠ 0 := by
    obtain ⟨-, -, ⟨hm, -⟩ | ⟨-, hleft⟩⟩ := h.wait_has_owner hw
    · exact absurd hm (isMotor_ne hop).2
    · exact hleft
  have hle := h.entries_at_most_epu
  exact { h with
    idle_at_rest := fun hb' => nomatch hb.symm.trans hb'
    engine_only_in_ready := fun hp => nomatch hw.symm.trans (h.engine_only_in_ready hp).2.2
    no_count_outside_wait := fun _ => hz
    wait_has_owner := nofun
    units_only_in_motor := fun _ => ⟨hb, hop⟩
    entries_of_a_unit := fun _ => hu
    entries_at_most_epu := show (s.entLeft - 1).toNat ≤ s.params.epu by bv_omega }

theorem toInt_add_one {x : BitVec 16} (h : x.toInt < 32767) : (x + 1).toInt = x.toInt + 1 := by
  have ⟨hlo, _⟩ := signed16_within x
  rw [BitVec.toInt_add, show (1 : BitVec 16).toInt = 1 from rfl]
  exact Int.bmod_eq_of_le (by omega) (by omega)

theorem toInt_sub_one {x : BitVec 16} (h : -32768 < x.toInt) : (x - 1).toInt = x.toInt - 1 := by
  have ⟨_, hhi⟩ := signed16_within x
  rw [BitVec.toInt_sub, show (1 : BitVec 16).toInt = 1 from rfl]
  exact Int.bmod_eq_of_le (by omega) (by omega)

/-- A unit moves the motor by one towards its destination, which stays where it is (R231, R236). -/
theorem endUnit_moves (h : s.Inv) (hu : s.unitsLeft ≠ 0) :
    (endUnit s).destination = s.destination ∧
      (s.dir = .forward ∧ (endUnit s).position = s.position + 1 ∧ s.position < s.destination ∨
        s.dir = .backward ∧ (endUnit s).position = s.position - 1 ∧ s.destination < s.position) := by
  have hhalf := halfTurn_le h.params_legal
  have ⟨hlo, hhi⟩ := h.destination_in_range
  have hunits : ((s.unitsLeft - 1).toNat : Int) = s.unitsLeft.toNat - 1 ∧ 0 < s.unitsLeft.toNat := by bv_omega
  cases hd : s.dir with
  | forward =>
    have hdest : s.destination = s.position + s.unitsLeft.toNat := by simp [State.destination, hd]
    have hpos : (endUnit s).position = s.position + 1 := by
      simp only [State.position, endUnit, hd] at *
      exact toInt_add_one (by omega)
    have hdest' : (endUnit s).destination = (endUnit s).position + (s.unitsLeft - 1).toNat := by
      simp [State.destination, endUnit, hd]
    exact ⟨by omega, .inl ⟨rfl, hpos, by omega⟩⟩
  | backward =>
    have hdest : s.destination = s.position - s.unitsLeft.toNat := by simp [State.destination, hd]
    have hpos : (endUnit s).position = s.position - 1 := by
      simp only [State.position, endUnit, hd] at *
      exact toInt_sub_one (by omega)
    have hdest' : (endUnit s).destination = (endUnit s).position - (s.unitsLeft - 1).toNat := by
      simp [State.destination, endUnit, hd]
    exact ⟨by omega, .inr ⟨rfl, hpos, by omega⟩⟩

theorem inv_unitEnd (h : s.Inv) (hb : s.busy = true) (hw : s.waiting = false) (hf : s.flight = none)
    (hop : s.curOp.isMotor) (hu : s.unitsLeft ≠ 0) : (endUnit s).Inv := by
  have ⟨hdest, hmove⟩ := endUnit_moves h hu
  have ⟨hlo, hhi⟩ := h.pos_in_range
  have ⟨hdlo, hdhi⟩ := h.destination_in_range
  have hepu := toNat_ofNat_epu h.params_legal
  exact { h with
    pos_in_range := show -halfTurn s.params ≤ (endUnit s).position ∧ (endUnit s).position ≤ halfTurn s.params by omega
    destination_in_range := hdest ▸ h.destination_in_range
    wait_has_owner := fun hw' => nomatch hw.symm.trans hw'
    flight_is_due := fun _ ht => nomatch hf.symm.trans ht
    units_only_in_motor := fun _ => ⟨hb, hop⟩
    entries_of_a_unit := fun he hz => he (if_pos hz)
    entries_at_most_epu := by simp only [endUnit]; split <;> simp [hepu] }

/-! ### The step -/

theorem SequencerStep.inv (hs : SequencerStep s s') (h : s.Inv) (hb : s.busy = true) (hoff : s.engPhase = .off) :
    s'.Inv := by
  cases hs with
  | hold => exact h
  | tick hw hz => exact { h with no_count_outside_wait := fun hw' => nomatch hw.symm.trans hw' }
  | pollWaitOver hw hz hop =>
    exact { h with
      idle_at_rest := fun hb' => nomatch hb.symm.trans hb'
      engine_only_in_ready := fun hp => absurd hoff hp
      no_count_outside_wait := fun _ => hz
      wait_has_owner := nofun }
  | entryOver hw hz hop => exact inv_entryOver h hb hw hz hop
  | loadFailed hf hop => exact inv_loadEnded h hoff hf hop s.cal h.result_after_load .busError
  | measureFailed hf hop => exact inv_measureFailed h hoff hf hop
  | calRow r hf hop _ =>
    exact { inv_endTransaction h hb hf with
      cal_idx_only_in_load := fun _ => ⟨hb, hop⟩
      flight_is_due := nofun }
  | calEnd r hf hop _ => exact inv_loadEnded h hoff hf hop _ (fun _ => rfl) .ok
  | triggered hf hop hm | measured hf hop hm =>
    exact inv_setMstate (inv_endTransaction h hb hf) hb hoff (h.waiting_eq_false hf) rfl hop (by simp [hm]) _
  | stillMeasuring hf hop hm =>
    exact { inv_endTransaction h hb hf with
      idle_at_rest := fun hb' => nomatch hb.symm.trans hb'
      engine_only_in_ready := fun hp => absurd hoff hp
      no_count_outside_wait := nofun
      wait_has_owner := fun _ => ⟨hb, rfl, .inl ⟨hop, hm⟩⟩ }
  | pressureRead r hf hop hm _ | temperatureRead r hf hop hm _ =>
    exact { inv_endTransaction h hb hf with
      rd_idx_only_in_ready := fun _ => ⟨hm, hoff⟩
      flight_is_due := nofun }
  | humidityRead r hf hop hm _ =>
    exact { inv_endTransaction h hb hf with
      eng_step_numbered := Nat.zero_le _
      idle_at_rest := fun hb' => nomatch hb.symm.trans hb'
      rd_idx_only_in_ready := nofun
      engine_only_in_ready := fun _ => ⟨hm, rfl, h.waiting_eq_false hf⟩
      eng_step_rests_at_zero := fun _ => rfl
      divisor_nonzero := nofun
      flight_is_due := nofun }
  | issue t hw hf hreq =>
    exact { h with
      idle_at_rest := fun hb' => nomatch hb.symm.trans hb'
      engine_only_in_ready := fun hp => absurd hoff hp
      wait_has_owner := fun hw' => nomatch hw.symm.trans hw'
      flight_is_due := fun t' ht => ⟨hb, hreq.trans ht⟩ }
  | leaveTriggered hw hf hop hm => exact inv_setMstate h hb hoff hw hf hop (by simp [hm]) _
  | motorDone hw hf hop hu => exact inv_motorDone h hoff hw hf hop hu
  | unitEnd hw hf hop hu _ => exact inv_unitEnd h hb hw hf hop hu
  | activation hw hf hop hu he =>
    exact { h with
      idle_at_rest := fun hb' => nomatch hb.symm.trans hb'
      engine_only_in_ready := fun hp => absurd hoff hp
      no_count_outside_wait := nofun
      wait_has_owner := fun _ => ⟨hb, hf, .inr ⟨⟨hb, hop⟩, hu, he⟩⟩ }

/-- Settles O53: a reset leaves the block at rest, and every other event keeps each part of the invariant. -/
theorem stepKeepsTheInvariant : Obligations.StepKeepsTheInvariant := by
  intro s s' h hs
  cases hr : s.input.rst with
  | true =>
    cases (step_rst hr).symm.trans hs
    exact inv_resetEdge h.params_legal
  | false =>
    rcases step_cases_of_inv h hr hs with ⟨hb, hs⟩ | ⟨hb, hs⟩ | ⟨hb, hoff, hs⟩
    · exact hs.inv h.clockEdge hb rfl
    · exact hs.inv h.clockEdge hb
    · exact hs.inv h.clockEdge hb hoff

end Sys2Proof.Machine
end

section
/-! What a step leaves alone and what it shows: the parameters and the motor's registers (R34, R294), the flags of STATUS
(R35, R44), and the events at the port (R31, R266). -/

namespace Sys2Proof.Machine

variable {s s' : State} {inp : PortIn}

/-! ### The motor's registers -/

/-- The registers that R34 gives the motor, and the parameters, are the same in both states. -/
structure MotorKept (s s' : State) : Prop where
  params : s'.params = s.params
  pos : s'.pos = s.pos
  coil : s'.coil = s.coil
  seqIdx : s'.seqIdx = s.seqIdx

/-- A command is taken or refused with the motor standing still: its first event is a later step. -/
theorem PortStep.motorKept (hs : PortStep inp s s') : MotorKept s s' := by
  cases hs <;> exact ⟨rfl, rfl, rfl, rfl⟩

theorem EngineStep.motorKept (hs : EngineStep s s') : MotorKept s s' := by
  cases hs <;> exact ⟨rfl, rfl, rfl, rfl⟩

/-- Only the end of a unit and an activation touch the motor's registers (R234). -/
theorem SequencerStep.motorKept_or (hs : SequencerStep s s') :
    MotorKept s s' ∨
    (s.curOp.isMotor ∧ s.waiting = false ∧ s.unitsLeft ≠ 0 ∧ s.entLeft = 0 ∧ s' = endUnit s) ∨
    (s.curOp.isMotor ∧ s' = activate s) := by
  cases hs with
  | unitEnd hw _ hop hu he => exact .inr (.inl ⟨hop, hw, hu, he, rfl⟩)
  | activation _ _ hop => exact .inr (.inr ⟨hop, rfl⟩)
  | _ => exact .inl ⟨rfl, rfl, rfl, rfl⟩

/-- What a step without reset does to the motor's registers from a state of the invariant. -/
theorem step_motor_cases (h : s.Inv) (hr : s.input.rst = false) (hs : step s = .next s') :
    MotorKept s s' ∨
    (s.motorRunning ∧ s.waiting = false ∧ s.unitsLeft ≠ 0 ∧ s.entLeft = 0 ∧ s' = endUnit s.clockEdge) ∨
    (s.motorRunning ∧ s' = activate s.clockEdge) := by
  rcases step_cases_of_inv h hr hs with ⟨-, hs⟩ | ⟨-, hs⟩ | ⟨hb, -, hs⟩
  · exact .inl { hs.motorKept with }
  · exact .inl { hs.motorKept with }
  · rcases hs.motorKept_or with hk | ⟨hop, hw, hu, he, heq⟩ | ⟨hop, heq⟩
    · exact .inl { hk with }
    · exact .inr (.inl ⟨⟨hb, hop⟩, hw, hu, he, heq⟩)
    · exact .inr (.inr ⟨⟨hb, hop⟩, heq⟩)

/-- A step without reset keeps the parameters (R294). -/
theorem params_of_step (h : s.Inv) (hr : s.input.rst = false) (hs : step s = .next s') : s'.params = s.params := by
  rcases step_motor_cases h hr hs with hk | ⟨-, -, -, -, rfl⟩ | ⟨-, rfl⟩
  · exact hk.params
  · rfl
  · rfl

/-- Settles O57: only the end of a unit moves `pos`, by one, and the range is part of the invariant. -/
theorem positionChangesOnlyAtUnitEnds : Obligations.PositionChangesOnlyAtUnitEnds := by
  intro s s' h hr hs
  have hrange := params_of_step h hr hs ▸ (stepKeepsTheInvariant s s' h hs).pos_in_range
  rcases step_motor_cases h hr hs with hk | ⟨hm, hw, hu, he, rfl⟩ | ⟨hm, rfl⟩
  · exact ⟨fun hne => absurd hk.pos hne, hrange, .inr ⟨hk.coil, hk.seqIdx⟩⟩
  · have hmove := (endUnit_moves h.clockEdge hu).2
    exact ⟨fun _ => ⟨hm, hw, he, hu, hmove.imp (·.2.1) (·.2.1)⟩, hrange, .inl hm⟩
  · exact ⟨fun hne => absurd rfl hne, hrange, .inl hm⟩

/-! ### The flags -/

/-- The flags of R35 and the port `done` have these values. -/
structure State.HasFlags (s : State) (busy calValid resValid : Bool) (err : CompletionCode) (done : Bool) : Prop where
  busy : s.busy = busy
  calValid : s.calValid = calValid
  resValid : s.resValid = resValid
  err : s.err = err
  done : s.done = done

/-- What a step without reset does to the flags, one constructor for each row of R35 that changes one. -/
inductive FlagStep (s s' : State) : Prop
  | keptIdle : s.busy = false → s.input.cmdValid = false →
      s'.HasFlags false s.calValid s.resValid s.err false → FlagStep s s'
  | keptBusy : s.busy = true → s'.HasFlags true s.calValid s.resValid s.err false → FlagStep s s'
  | refused (c : CompletionCode) : s.busy = false → s.input.cmdValid = true →
      s'.HasFlags false s.calValid s.resValid c true → FlagStep s s'
  | accepted : s.busy = false → s.input.cmdValid = true → (∃ i, decode (.command s.input.cmd) = .ok i) →
      s'.HasFlags true s.calValid s.resValid s.err false → FlagStep s s'
  | completed (c : CompletionCode) : s.busy = true →
      s'.HasFlags false s.calValid s.resValid c true → FlagStep s s'
  | loaded : s.busy = true → s.curOp = .loadCal → s.calIdx = 16 →
      s'.HasFlags false true s.resValid .ok true → FlagStep s s'
  | committed : s.busy = true → s.engPhase = .running → s.engStep = 22 →
      s'.HasFlags true s.calValid true s.err false → FlagStep s s'

theorem PortStep.flagStep (hs : PortStep s.input s.clockEdge s') (hb : s.busy = false) : FlagStep s s' := by
  cases hs with
  | rest hv => exact .keptIdle hb hv ⟨hb, rfl, rfl, rfl, rfl⟩
  | refused c hv => exact .refused c hb hv ⟨hb, rfl, rfl, rfl, rfl⟩
  | startLoad hv hd | startMeasure hv hd | startMotor _ hv hd => exact .accepted hb hv hd ⟨rfl, rfl, rfl, rfl, rfl⟩

theorem EngineStep.flagStep (hs : EngineStep s.clockEdge s') (hb : s.busy = true) : FlagStep s s' := by
  cases hs with
  | work => exact .keptBusy hb ⟨hb, rfl, rfl, rfl, rfl⟩
  | commit hp hk => exact .committed hb hp hk ⟨hb, rfl, rfl, rfl, rfl⟩
  | finish => exact .completed .ok hb ⟨rfl, rfl, rfl, rfl, rfl⟩

theorem SequencerStep.flagStep (hs : SequencerStep s.clockEdge s') (hb : s.busy = true) : FlagStep s s' := by
  cases hs with
  | loadFailed | measureFailed | motorDone => exact .completed _ hb ⟨rfl, rfl, rfl, rfl, rfl⟩
  | calEnd _ _ hop hi => exact .loaded hb hop hi ⟨rfl, rfl, rfl, rfl, rfl⟩
  | _ => exact .keptBusy hb ⟨hb, rfl, rfl, rfl, rfl⟩

theorem flagStep_of_step (h : s.Inv) (hr : s.input.rst = false) (hs : step s = .next s') : FlagStep s s' := by
  rcases step_cases_of_inv h hr hs with ⟨hb, hs⟩ | ⟨hb, hs⟩ | ⟨hb, -, hs⟩ <;> exact hs.flagStep hb

theorem ports_done (s : State) (sel : BitVec 3) : (s.ports sel).done = s.done := rfl

/-- Settles O59: each row of R35 read off the flags before and after. -/
theorem flagsChangeOnlyAsListed : Obligations.FlagsChangeOnlyAsListed := by
  intro s s' h hr hs
  cases flagStep_of_step h hr hs with
  | keptIdle hb hv hf => simp [hb, hv, hf.busy, hf.calValid, hf.resValid, hf.err, hf.done, ports_done]
  | keptBusy hb hf => simp +contextual [hb, hf.busy, hf.calValid, hf.resValid, hf.err, hf.done, ports_done]
  | refused c hb hv hf => simp [hb, hv, hf.busy, hf.calValid, hf.resValid, hf.done, ports_done]
  | accepted hb hv hd hf => simp [hb, hv, hd, hf.busy, hf.calValid, hf.resValid, hf.err, hf.done, ports_done]
  | completed c hb hf => simp +contextual [hb, hf.busy, hf.calValid, hf.resValid, hf.done, ports_done]
  | loaded hb hop hi hf =>
    simp +contextual [hb, hop, hi, hf.busy, hf.calValid, hf.resValid, hf.err, hf.done, ports_done]
  | committed hb hp hk hf =>
    simp [hb, hp, hk, hf.busy, hf.calValid, hf.resValid, hf.err, hf.done, ports_done]

/-! ### The events at the port -/

/-- The edge of an idle block shows only what happens to the word at its port: the rest of what R31 lists stands still. -/
theorem PortStep.stepEvents_eq (h : s.Inv) (hb : s.busy = false) (hr : s.input.rst = false)
    (hs : PortStep s.input s.clockEdge s') :
    stepEvents s s' = eventIf s'.busy (.accepted s'.curOp) ++ eventIf (!s'.busy && s'.done) (.refused s'.err) := by
  obtain ⟨hm, hf, hw, hp⟩ := h.idle_at_rest hb
  have hkept := hs.motorKept
  have hrest : s'.mstate = .idle ∧ s'.flight = none ∧ s'.waiting = false ∧ s'.engPhase = .off := by
    cases hs <;> exact ⟨hm, hf, hw, hp⟩
  obtain ⟨hm', hf', hw', hp'⟩ := hrest
  simp [stepEvents, eventIf, answerEvents, requestEvents, hr, hb, hm, hf, hw, hp, hm', hf', hw', hp', hkept.pos,
    hkept.coil]

/-- Settles O60: a word at the port of an idle block is refused or starts its command, and nothing else is shown. -/
theorem portEventsAreRefusalOrAcceptance : Obligations.PortEventsAreRefusalOrAcceptance := by
  intro s s' h hb hr hv hstep
  have hs : PortStep s.input s.clockEdge s' := by
    rcases step_cases_of_inv h hr hstep with ⟨-, hs⟩ | ⟨hb', -⟩ | ⟨hb', -⟩
    · exact hs
    · exact nomatch hb.symm.trans hb'
    · exact nomatch hb.symm.trans hb'
  have hev := hs.stepEvents_eq h hb hr
  cases hs with
  | rest hv' => exact nomatch hv.symm.trans hv'
  | refused c => exact .inl ⟨hb, hev.trans (by simp [eventIf, hb]), rfl⟩
  | startLoad | startMeasure | startMotor => exact .inr ⟨rfl, hev.trans (by simp [eventIf, startMotor])⟩

end Sys2Proof.Machine
end

section
/-! Reset and the host's view (R40, R41, R47, R290 to R292), and the range of `t_fine` (R26, R147). -/

namespace Sys2Proof.Machine

/-! ### Reset -/

theorem status_resetEdge (s : State) : s.resetEdge.status = 0 := by
  simp [State.status, MState.bits, CompletionCode.bits]

/-- Settles O50: the idle edge is `clockEdge` alone, and the reset edge is `resetEdge` after it. -/
theorem resetEdgeRestoresTheResetValues : Obligations.ResetEdgeRestoresTheResetValues := by
  constructor
  · intro s hb hr hv
    exact (step_idle hr hb).trans (idleEdge_none hv)
  · intro s hr
    refine ⟨_, step_rst hr, ?_⟩
    simp [status_resetEdge, State.ports, Op.bits, RawGroup.bits, Dir.bits]

/-! ### The host's view -/

section
variable (s : State)

/-- The flags of STATUS, bits [3:0] (R41). -/
theorem status_flags :
    s.status.getLsbD 0 = s.busy ∧ s.status.getLsbD 1 = s.calValid ∧ s.status.getLsbD 2 = s.resValid ∧
    s.status.getLsbD 3 = false := by
  simp only [State.status, BitVec.getLsbD_append]
  simp

/-- The codes of STATUS, bits [31:4] (R41). -/
theorem status_codes :
    s.status.extractLsb' 4 4 = s.err.bits ∧ s.status.extractLsb' 8 2 = s.mstate.bits ∧
    s.status.extractLsb' 10 22 = 0 := by
  refine ⟨?_, ?_, ?_⟩ <;> ext i hi <;>
    simp only [State.status, BitVec.getElem_extractLsb', BitVec.getLsbD_append] <;> grind

/-- `x[5]` field by field (R40). -/
theorem motorView_fields :
    s.motorView.extractLsb' 0 4 = s.coil ∧ s.motorView.extractLsb' 4 3 = s.seqIdx ∧
    s.motorView.extractLsb' 7 25 = 0 := by
  refine ⟨?_, ?_, ?_⟩ <;> ext i hi <;>
    simp only [State.motorView, BitVec.getElem_extractLsb', BitVec.getLsbD_append] <;> grind

end

/-- Settles O51: the views of R40 are the registers, and the ports of R44 follow them. -/
theorem hostReadsTheSixRegisters : Obligations.HostReadsTheSixRegisters := by
  intro s
  obtain ⟨hbusy, hcal, hres, hzero⟩ := status_flags s
  obtain ⟨herr, hm, htop⟩ := status_codes s
  obtain ⟨hcoil, hseq, hrest⟩ := motorView_fields s
  refine ⟨hbusy, hcal, hres, hzero, herr, hm, htop, rfl, rfl, rfl, ?_, hcoil, hseq, hrest, rfl, rfl, ?_⟩
  · exact BitVec.toInt_signExtend_of_le (by decide)
  · exact fun sel => ⟨rfl, by simp [State.ports], rfl⟩

/-! ### The range of `t_fine` -/

/-- `v1` of E0 (R147): the first term of `t_fine`. -/
theorem fineTerm1_within {adcT T1 T2 : Int} (ha : within 0 1048575 adcT) (h1 : within 0 65535 T1)
    (h2 : within (-32768) 32767 T2) : within (-2097136) 2097120 (asr ((asr adcT 3 - shl T1 1) * T2) 11) := by
  obtain ⟨hlo, hhi⟩ : within (-131070) 131071 (asr adcT 3 - shl T1 1) := by
    simp only [within, asr, shl] at *
    omega
  obtain ⟨h2lo, h2hi⟩ := h2
  have hprod : within (-4294934528) 4294901760 ((asr adcT 3 - shl T1 1) * T2) := ⟨by nlinarith, by nlinarith⟩
  exact within_asr hprod 11

/-- `v2` of E1 (R147): the second term of `t_fine`. -/
theorem fineTerm2_within {adcT T1 T3 : Int} (ha : within 0 1048575 adcT) (h1 : within 0 65535 T1)
    (h3 : within (-32768) 32767 T3) :
    within (-2097088) 2097024 (asr (asr ((asr adcT 4 - T1) * (asr adcT 4 - T1)) 12 * T3) 14) := by
  obtain ⟨hlo, hhi⟩ : within (-65535) 65535 (asr adcT 4 - T1) := by
    simp only [within, asr] at *
    omega
  have hsq : within 0 4294836225 ((asr adcT 4 - T1) * (asr adcT 4 - T1)) := ⟨mul_self_nonneg _, by nlinarith⟩
  obtain ⟨hqlo, hqhi⟩ : within 0 1048544 (asr ((asr adcT 4 - T1) * (asr adcT 4 - T1)) 12) := within_asr hsq 12
  obtain ⟨h3lo, h3hi⟩ := h3
  have hprod : within (-34358689792) 34357641248 (asr ((asr adcT 4 - T1) * (asr adcT 4 - T1)) 12 * T3) :=
    ⟨by nlinarith, by nlinarith⟩
  exact within_asr hprod 14

/-- Settles O26: the two terms of `t_fine`, each in the range of its register (R147). -/
theorem fineTemperatureRange : Obligations.FineTemperatureRange := by
  intro s
  have ha : within 0 1048575 s.rawT := unsigned_within s.adcT
  have h1 : within 0 65535 s.cal.T1 := unsigned_within s.cal.t1
  obtain ⟨hlo1, hhi1⟩ := fineTerm1_within ha h1 (signed16_within s.cal.t2)
  obtain ⟨hlo2, hhi2⟩ := fineTerm2_within ha h1 (signed16_within s.cal.t3)
  exact ⟨add_le_add hlo1 hlo2, add_le_add hhi1 hhi2⟩

end Sys2Proof.Machine
end

section
/-! The bus: the numbers its bytes decode to (R67 to R69), and the transactions a step issues, keeps and ends (R60, R66,
R77). -/

namespace Sys2Proof.Machine

variable {s s' : State} {t : Transaction}

/-! ### The bytes of an answer -/

theorem toNat_append_eq_add {v w : Nat} (x : BitVec v) (y : BitVec w) : (x ++ y).toNat = x.toNat * 2 ^ w + y.toNat := by
  rw [BitVec.toNat_append, ← Nat.shiftLeft_add_eq_or_of_lt y.isLt, Nat.shiftLeft_eq]

/-- Two's complement (R14) by the top half of the unsigned values. -/
theorem toInt_eq_ite {w : Nat} (x : BitVec (w + 1)) :
    x.toInt = if x.toNat < 2 ^ w then (x.toNat : Int) else x.toNat - 2 ^ (w + 1) := by
  have h : 2 * x.toNat < 2 ^ (w + 1) ↔ x.toNat < 2 ^ w := by omega
  simp only [BitVec.toInt_eq_toNat_cond, h]
  push_cast
  rfl

theorem toNat_lowNibble (x : Byte) : (x.extractLsb' 0 4).toNat = x.toNat &&& 0x0F := by
  simp [BitVec.extractLsb'_toNat, Nat.and_two_pow_sub_one_eq_mod x.toNat 4]

theorem toNat_highNibble (x : Byte) : (x.extractLsb' 4 4).toNat = x.toNat >>> 4 := by
  have h := x.isLt
  simp only [BitVec.extractLsb'_toNat, Nat.shiftRight_eq_div_pow]
  omega

section
variable (r : BitVec 24)

theorem le16_toNat : (le16 r).toNat = (byte0 r).toNat + 256 * (byte1 r).toNat := by
  rw [le16, toNat_append_eq_add]
  omega

theorem h4Bits_toNat : (h4Bits r).toNat = ((byte0 r).toNat <<< 4) ||| ((byte1 r).toNat &&& 0x0F) := by
  rw [h4Bits, BitVec.toNat_append, toNat_lowNibble]

theorem h5Bits_toNat : (h5Bits r).toNat = ((byte2 r).toNat <<< 4) ||| ((byte1 r).toNat >>> 4) := by
  rw [h5Bits, BitVec.toNat_append, toNat_highNibble]

theorem be16_toNat : (be16 r).toNat = ((byte0 r).toNat <<< 8) + (byte1 r).toNat := by
  rw [be16, toNat_append_eq_add, Nat.shiftLeft_eq]

theorem be20_toNat :
    (be20 r).toNat = ((byte0 r).toNat <<< 12) + ((byte1 r).toNat <<< 4) + ((byte2 r).toNat >>> 4) := by
  rw [be20, toNat_append_eq_add, toNat_append_eq_add, toNat_highNibble, Nat.shiftLeft_eq, Nat.shiftLeft_eq]
  omega

end

/-- Settles O29: each decoder puts bytes side by side, and a signed field reads the same pattern in two's complement. -/
theorem busBytesDecode : Obligations.BusBytesDecode := by
  intro r b0 b1 b2
  refine ⟨le16_toNat r, ?_, rfl, toInt_eq_ite (le8 r), h4Bits_toNat r, h5Bits_toNat r, toInt_eq_ite (h4Bits r),
    toInt_eq_ite (h5Bits r), be20_toNat r, be16_toNat r⟩
  rw [← show (le16 r).toNat = b0 + 256 * b1 from le16_toNat r]
  exact toInt_eq_ite (le16 r)

/-! ### The transactions of R66 -/

/-- What the command in progress asks for: a row of the calibration table (R122), the trigger write (R194), a status read
(R196) or a raw group (R199 to R201). -/
theorem nextRequest_cases (h : nextRequest s = some t) :
    (s.curOp = .loadCal ∧ t = s.readRequest (calOffset s.calIdx) (calLen s.calIdx)) ∨
    (s.curOp = .measure ∧ t = s.writeRequest 0xF4 s.params.ctrlMeasTrigger) ∨
    (s.curOp = .measure ∧ t = s.readRequest 0xF3 1) ∨
    (s.curOp = .measure ∧ t = s.readRequest (rawOffset s.rdIdx) (rawLen s.rdIdx)) := by
  cases hop : s.curOp with
  | loadCal =>
    simp only [nextRequest, hop] at h
    cases h
    exact .inl ⟨rfl, rfl⟩
  | measure =>
    right
    cases hm : s.mstate <;> simp only [nextRequest, measureRequest, hop, hm] at h <;> cases h
    · exact .inl ⟨rfl, rfl⟩
    · exact .inr (.inl ⟨rfl, rfl⟩)
    · exact .inr (.inr ⟨rfl, rfl⟩)
  | rotateBy | rotateTo => simp [nextRequest, hop] at h

theorem calOffset_not_forbidden :
    ∀ i : Fin 17, calOffset i ≠ 0xD0 ∧ calOffset i ≠ 0xF2 ∧ calOffset i ≠ 0xA0 := by decide

theorem calLen_le_three : ∀ i : Fin 17, calLen i ≤ 3 := by decide

theorem rawLen_le_three (g : RawGroup) : rawLen g ≤ 3 := by cases g <;> decide

/-- A transaction is at most 3 bytes, so that its count fits the two bits of `bus_req_len` (R44). -/
theorem len_le_three_of_nextRequest (h : nextRequest s = some t) : t.len ≤ 3 := by
  rcases nextRequest_cases h with ⟨-, rfl⟩ | ⟨-, rfl⟩ | ⟨-, rfl⟩ | ⟨-, rfl⟩
  · exact calLen_le_three s.calIdx
  · exact show 1 ≤ 3 by decide
  · exact show 1 ≤ 3 by decide
  · exact rawLen_le_three s.rdIdx

/-! ### What a step does to the transaction in flight -/

theorem takeCommand_flight {c : Option CompletionCode} {w : State} (h : takeCommand s c w = .next s')
    (hw : w.flight = s.flight) : s'.flight = s.flight := by
  rcases takeCommand_cases s c w with ⟨-, he⟩ | ⟨_, -, -, he⟩ | ⟨-, -, he⟩ <;> cases he.symm.trans h
  · rfl
  · rfl
  · exact hw

/-- No instruction issues or ends a transaction: the sequence of its command does. -/
theorem exec_flight {i : Instr} (h : exec i s = .next s') : s'.flight = s.flight := by
  cases i with
  | loadCal | measure => exact takeCommand_flight h rfl
  | rotateBy | rotateTo | nudgeCw | nudgeCcw => exact takeCommand_flight (c := none) h rfl
  | e10 => rcases execE10_cases s with ⟨-, he⟩ | ⟨-, he⟩ <;> cases he.symm.trans h <;> rfl
  | _ => cases h; rfl

theorem raiseBusError_flight (s : State) : s.raiseBusError.flight = s.flight := by
  unfold State.raiseBusError
  cases s.curOp <;> rfl

theorem calAnswered_flight (s : State) (r : BitVec 24) : (calAnswered s r).flight = s.flight := by
  rcases calAnswered_cases s r with ⟨-, he⟩ | ⟨-, he⟩ <;> simp [he]

theorem statusAnswered_flight (s : State) (r : BitVec 24) : (statusAnswered s r).flight = s.flight := by
  rcases statusAnswered_cases s r with ⟨-, he⟩ | ⟨-, he⟩ <;> simp [he]

theorem rawAnswered_flight (s : State) (r : BitVec 24) : (rawAnswered s r).flight = s.flight := by
  unfold rawAnswered
  cases s.rdIdx <;> rfl

theorem measureAnswered_flight (s : State) (r : BitVec 24) : (measureAnswered s r).flight = s.flight := by
  unfold measureAnswered
  cases s.mstate with
  | idle | triggered => rfl
  | polling => exact statusAnswered_flight s r
  | ready => exact rawAnswered_flight s r

/-- An answer ends the transaction, whatever it is (R60). -/
theorem receive_flight (s : State) (failed : Bool) (r : BitVec 24) : (receive s failed r).flight = none := by
  cases failed with
  | true => exact raiseBusError_flight s.endTransaction
  | false =>
    cases hop : s.curOp with
    | loadCal => rw [receive_loadCal hop]; exact calAnswered_flight s.endTransaction r
    | measure => rw [receive_measure hop]; exact measureAnswered_flight s.endTransaction r
    | rotateBy | rotateTo => simp [receive, hop]

theorem endWait_flight (s : State) : s.endWait.flight = s.flight := by
  unfold State.endWait
  cases s.curOp <;> rfl

theorem waitEdge_flight (s : State) (tick : Bool) : (s.waitEdge tick).flight = s.flight := by
  rcases waitEdge_cases s tick with ⟨-, he⟩ | ⟨-, -, he⟩ | ⟨-, -, he⟩ <;> rw [he]
  exact endWait_flight s

theorem motorAdvance_flight (s : State) : (motorAdvance s).flight = s.flight := by
  rcases motorAdvance_cases s with ⟨-, he⟩ | ⟨-, -, he⟩ | ⟨-, -, he⟩ <;> rw [he] <;> rfl

theorem internalAdvance_flight (s : State) : (internalAdvance s).flight = s.flight := by
  unfold internalAdvance
  cases s.curOp with
  | loadCal | measure => rfl
  | rotateBy | rotateTo => exact motorAdvance_flight s

/-- An edge of the sequencer ends the transaction, keeps it, or issues the one that is due. -/
theorem sequenceEdge_flight (s : State) (inp : PortIn) :
    (sequenceEdge s inp).flight = none ∨ (sequenceEdge s inp).flight = s.flight ∨
      (sequenceEdge s inp).flight = nextRequest s := by
  rcases sequenceEdge_cases s inp with ⟨-, he⟩ | ⟨-, -, -, he⟩ | ⟨-, -, -, he⟩ | ⟨-, -, he⟩ <;> rw [he]
  · exact .inr (.inl (waitEdge_flight s _))
  · exact .inl (receive_flight s _ _)
  · exact .inr (.inl rfl)
  · rcases sequenceAdvance_cases s with ⟨u, hreq, ha⟩ | ⟨-, ha⟩ <;> rw [ha]
    · exact .inr (.inr hreq.symm)
    · exact .inr (.inl (internalAdvance_flight s))

/-- A step ends the transaction in flight, keeps it, or issues the one that is due, from every state. -/
theorem step_flight (hs : step s = .next s') :
    s'.flight = none ∨ s'.flight = s.flight ∨ s'.flight = nextRequest s := by
  rcases step_cases s with ⟨-, he⟩ | ⟨-, -, -, he⟩ | ⟨-, -, -, _, -, he⟩ | ⟨-, -, -, _, -, he⟩ | ⟨-, -, -, _, -, he⟩ |
    ⟨-, -, -, _, -, he⟩ | ⟨-, -, -, he⟩ | ⟨-, -, -, he⟩ <;> have hs := he.symm.trans hs
  · cases hs; exact .inl rfl
  · cases hs; exact .inr (.inl rfl)
  · cases hs; exact .inr (.inl rfl)
  · exact .inr (.inl (exec_flight (s := s.clockEdge) hs))
  · exact .inr (.inl (exec_flight (s := s.clockEdge) hs))
  · cases hs
  · cases hs; exact .inr (.inl rfl)
  · cases hs; exact sequenceEdge_flight s.clockEdge s.input

/-- A transaction that a step starts is the one the command in progress has come to. -/
theorem nextRequest_of_started (hs : step s = .next s') (ht : s'.flight = some t) (hnew : s.flight ≠ some t) :
    nextRequest s = some t := by
  rcases step_flight hs with h | h | h
  · cases h.symm.trans ht
  · exact absurd (h.symm.trans ht) hnew
  · exact h.symm.trans ht

/-- Settles O31: what a step starts is due, and what is due is a row of R66's list. -/
theorem onlyListedTransactionsAreIssued : Obligations.OnlyListedTransactionsAreIssued := by
  intro s s' t hs ht hnew
  rcases nextRequest_cases (nextRequest_of_started hs ht hnew) with
    ⟨hop, rfl⟩ | ⟨hop, rfl⟩ | ⟨hop, rfl⟩ | ⟨hop, rfl⟩
  · obtain ⟨hid, hhum, ha0⟩ := calOffset_not_forbidden s.calIdx
    exact ⟨rfl, .inr (.inl ⟨rfl, hop, s.calIdx, rfl, rfl⟩), hid, hhum, ha0, fun _ => rfl⟩
  · refine ⟨rfl, .inl ⟨rfl, rfl, rfl, rfl, hop⟩, ?_⟩
    simp [State.writeRequest]
  · refine ⟨rfl, .inr (.inr ⟨rfl, hop, .inl ⟨rfl, rfl⟩⟩), ?_⟩
    simp [State.readRequest]
  · cases hg : s.rdIdx <;> simp [State.readRequest, rawOffset, rawLen, hop]

/-! ### One transaction at a time -/

/-- With a transaction in flight the block is stalled: only the response is looked at (R45). -/
theorem step_of_flight (h : s.Inv) (hf : s.flight ≠ none) (hr : s.input.rst = false) :
    step s = .next (if s.input.busRespValid then receive s.clockEdge s.input.busRespErr s.input.busRespRdata
      else s.clockEdge) := by
  obtain ⟨u, hu⟩ := Option.ne_none_iff_exists'.mp hf
  have hb : s.busy = true := (h.flight_is_due u hu).1
  have hoff : s.engPhase = .off := by
    by_contra hp
    exact hf (h.engine_only_in_ready hp).2.1
  have hw : s.waiting = false := h.waiting_eq_false hf
  rw [step_busy hr hb, busyEdge_off (s := s.clockEdge) hoff]
  simp [sequenceEdge, hw, hu]

/-- Settles O32: an answer ends the transaction, no answer leaves the block as it is, and the ports show what is in
flight. -/
theorem oneTransactionAtATime : Obligations.OneTransactionAtATime := by
  refine ⟨fun s s' t h hf hs => ?_, fun s sel h => ⟨?_, fun t hf => ?_⟩⟩
  · cases hr : s.input.rst with
    | true =>
      cases (step_rst hr).symm.trans hs
      exact .inl ⟨rfl, .inl rfl⟩
    | false =>
      have hstep := step_of_flight h (by simp [hf]) hr
      cases hv : s.input.busRespValid with
      | true =>
        rw [hv, if_pos rfl] at hstep
        cases hstep.symm.trans hs
        exact .inl ⟨receive_flight _ _ _, .inr rfl⟩
      | false =>
        rw [hv, if_neg Bool.false_ne_true] at hstep
        cases hstep.symm.trans hs
        exact .inr ⟨hf, rfl, rfl, rfl⟩
  · simp [State.ports, Option.isSome_iff_ne_none]
  · have hlen : t.len ≤ 3 := len_le_three_of_nextRequest (h.flight_is_due t hf).2
    have hmod : t.len % 4 = t.len := Nat.mod_eq_of_lt (by omega)
    simp [State.ports, hf, hmod]

end Sys2Proof.Machine
end

section
/-! The encoding: the decoder's answer for each opcode, the words it accepts, and that encoder and decoder are inverse
(R92 to R104, R112). -/

namespace Sys2Proof

/-! ### A word of zero reserved bits is made from its other fields -/

theorem ofBool_beq_one : ∀ b : BitVec 1, BitVec.ofBool (b == 1) = b := by decide

theorem dirbitField_eq_one_iff (w : CommandWord) : dirbitField w = 1 ↔ w.getLsbD 48 = true := by
  rw [BitVec.eq_of_getLsbD_eq_iff]
  simp [dirbitField]

theorem dirbitField_ne_zero_iff (w : CommandWord) : dirbitField w ≠ 0 ↔ w.getLsbD 48 = true := by
  rw [← dirbitField_eq_one_iff]
  generalize dirbitField w = b
  revert b
  decide

theorem eq_commandWord {w : CommandWord} (h : rsvField w = 0) :
    w = commandWord (opcodeField w) (dirbitField w == 1) (angleField w) (delayField w) := by
  conv_lhs => rw [← fields_append w, h]
  rw [commandWord, ofBool_beq_one]

/-- The delay is the low bits of the word. -/
theorem commandWord_eq_or (op : BitVec 8) (cw : Bool) (a : BitVec 16) (d : BitVec 32) :
    commandWord op cw a d = commandWord op cw a 0 ||| d.setWidth 64 := by
  ext i hi
  simp only [commandWord, BitVec.getElem_or, BitVec.getElem_append, BitVec.getElem_setWidth]
  grind

/-! ### The decoder on each opcode -/

section Branches

variable {w : CommandWord}

theorem decodeCommand_reserved (h : rsvField w ≠ 0) : decodeCommand w = .error .reservedBits := if_pos h

theorem decodeCommand_loadCal (hr : rsvField w = 0) (ho : opcodeField w = 0x01) :
    decodeCommand w = if operandField w = 0 then .ok .loadCal else .error .operandBits := by
  simp [decodeCommand, hr, ho]

theorem decodeCommand_measure (hr : rsvField w = 0) (ho : opcodeField w = 0x02) :
    decodeCommand w = if operandField w = 0 then .ok .measure else .error .operandBits := by
  simp [decodeCommand, hr, ho]

theorem decodeCommand_rotateBy (hr : rsvField w = 0) (ho : opcodeField w = 0x10) :
    decodeCommand w = .ok (rotateByOf (dirbitField w == 1) (angleField w).toNat (delayField w).toNat) := by
  simp [decodeCommand, hr, ho]

theorem decodeCommand_rotateTo (hr : rsvField w = 0) (ho : opcodeField w = 0x11) :
    decodeCommand w = if dirbitField w = 0 then .ok (.rotateTo (angleField w).toInt (delayField w).toNat)
      else .error .dirbitSet := by
  simp [decodeCommand, hr, ho]

theorem decodeCommand_unknown (hr : rsvField w = 0) (h1 : opcodeField w ≠ 0x01) (h2 : opcodeField w ≠ 0x02)
    (h10 : opcodeField w ≠ 0x10) (h11 : opcodeField w ≠ 0x11) : decodeCommand w = .error .unknownOpcode := by
  rw [decodeCommand, if_neg (not_not.mpr hr), if_neg h1, if_neg h2, if_neg h10, if_neg h11]

end Branches

/-! ### The decoder on a word made from fields -/

theorem decodeCommand_rotateByWord (cw : Bool) (a : BitVec 16) (d : BitVec 32) :
    decodeCommand (commandWord 0x10 cw a d) = .ok (rotateByOf cw a.toNat d.toNat) := by
  rw [decodeCommand_rotateBy (by simp) (by simp)]
  cases cw <;> simp

theorem decodeCommand_rotateToWord (a : BitVec 16) (d : BitVec 32) :
    decodeCommand (commandWord 0x11 false a d) = .ok (.rotateTo a.toInt d.toNat) := by
  rw [decodeCommand_rotateTo (by simp) (by simp)]
  simp

/-! ### Which words decode -/

/-- The opcodes of R94, or none of them. -/
theorem opcodeField_cases (w : CommandWord) :
    opcodeField w = 0x01 ∨ opcodeField w = 0x02 ∨ opcodeField w = 0x10 ∨ opcodeField w = 0x11 ∨
      (opcodeField w ≠ 0x01 ∧ opcodeField w ≠ 0x02 ∧ opcodeField w ≠ 0x10 ∧ opcodeField w ≠ 0x11) := by
  tauto

/-- A format N word is its opcode alone. -/
theorem eq_commandWord_plain {w : CommandWord} (hr : rsvField w = 0) (hz : operandField w = 0) :
    w = commandWord (opcodeField w) false 0 0 := by
  obtain ⟨hd, ha, hu⟩ := operandField_eq_zero hz
  have hw := eq_commandWord hr
  rwa [hd, ha, hu] at hw

/-- Every word that decodes, with the instruction it decodes to. -/
theorem decodeCommand_ok_cases {w : CommandWord} {i : Instr} (h : decodeCommand w = .ok i) :
    (w = commandWord 0x01 false 0 0 ∧ i = .loadCal) ∨ (w = commandWord 0x02 false 0 0 ∧ i = .measure) ∨
    (∃ cw a d, w = commandWord 0x10 cw a d ∧ i = rotateByOf cw a.toNat d.toNat) ∨
    ∃ a d, w = commandWord 0x11 false a d ∧ i = .rotateTo a.toInt d.toNat := by
  by_cases hr : rsvField w = 0
  · rcases opcodeField_cases w with ho | ho | ho | ho | ⟨h1, h2, h10, h11⟩
    · rw [decodeCommand_loadCal hr ho] at h
      split at h <;> cases h
      exact .inl ⟨ho ▸ eq_commandWord_plain hr ‹_›, rfl⟩
    · rw [decodeCommand_measure hr ho] at h
      split at h <;> cases h
      exact .inr (.inl ⟨ho ▸ eq_commandWord_plain hr ‹_›, rfl⟩)
    · cases (decodeCommand_rotateBy hr ho).symm.trans h
      exact .inr (.inr (.inl ⟨_, _, _, ho ▸ eq_commandWord hr, rfl⟩))
    · rw [decodeCommand_rotateTo hr ho] at h
      split at h <;> cases h
      next hd =>
        have hw := eq_commandWord hr
        rw [ho, hd] at hw
        exact .inr (.inr (.inr ⟨_, _, hw, rfl⟩))
    · cases (decodeCommand_unknown hr h1 h2 h10 h11).symm.trans h
  · cases (decodeCommand_reserved hr).symm.trans h

theorem exists_error_ite {p : Prop} [Decidable p] (i : Instr) (e : DecodeError) :
    (∃ e', (if p then .ok i else .error e : Except DecodeError Instr) = .error e') ↔ ¬ p := by
  split <;> simp [*]

/-- The words R100 names, and no others, fail to decode. -/
theorem decodeCommand_error_iff (w : CommandWord) :
    (∃ e, decodeCommand w = .error e) ↔
      (opcodeField w ≠ 0x01 ∧ opcodeField w ≠ 0x02 ∧ opcodeField w ≠ 0x10 ∧ opcodeField w ≠ 0x11) ∨
      rsvField w ≠ 0 ∨
      ((opcodeField w = 0x01 ∨ opcodeField w = 0x02) ∧ operandField w ≠ 0) ∨
      (opcodeField w = 0x11 ∧ w.getLsbD 48 = true) := by
  by_cases hr : rsvField w = 0
  · rcases opcodeField_cases w with ho | ho | ho | ho | ⟨h1, h2, h10, h11⟩
    · rw [decodeCommand_loadCal hr ho, exists_error_ite]
      simp [hr, ho]
    · rw [decodeCommand_measure hr ho, exists_error_ite]
      simp [hr, ho]
    · rw [decodeCommand_rotateBy hr ho]
      simp [hr, ho]
    · rw [decodeCommand_rotateTo hr ho, exists_error_ite, ← ne_eq, dirbitField_ne_zero_iff]
      simp [hr, ho]
    · exact iff_of_true ⟨_, decodeCommand_unknown hr h1 h2 h10 h11⟩ (.inl ⟨h1, h2, h10, h11⟩)
  · exact iff_of_true ⟨_, decodeCommand_reserved hr⟩ (.inr (.inl hr))

/-! ### The rows of the opcode map -/

theorem OpcodeRow.selects_command_iff (m k w : CommandWord) :
    (OpcodeRow.command m k).selects (.command w) = true ↔ w &&& k = m := beq_iff_eq

theorem opcodeField_and (w k : CommandWord) : opcodeField (w &&& k) = opcodeField w &&& opcodeField k :=
  BitVec.extractLsb'_and

theorem rsvField_and (w k : CommandWord) : rsvField (w &&& k) = rsvField w &&& rsvField k := BitVec.extractLsb'_and

theorem dirbitField_and (w k : CommandWord) : dirbitField (w &&& k) = dirbitField w &&& dirbitField k :=
  BitVec.extractLsb'_and

/-- A mask that keeps opcode and rsv compares both with those of the match. -/
theorem opcode_rsv_of_masked {w k m : CommandWord} (h : w &&& k = m) (hk : opcodeField k = BitVec.allOnes 8)
    (hk' : rsvField k = BitVec.allOnes 7) : opcodeField w = opcodeField m ∧ rsvField w = rsvField m := by
  subst h
  rw [opcodeField_and, rsvField_and, hk, hk', BitVec.and_allOnes, BitVec.and_allOnes]
  exact ⟨rfl, rfl⟩

/-- The words that decode are those that match a row (R104). -/
theorem decodeCommand_ok_iff_selected (w : CommandWord) :
    (∃ i, decodeCommand w = .ok i) ↔ ∃ r ∈ commandRows, r.selects (.command w) = true := by
  constructor
  · rintro ⟨i, h⟩
    rcases decodeCommand_ok_cases h with ⟨rfl, -⟩ | ⟨rfl, -⟩ | ⟨cw, a, d, rfl, -⟩ | ⟨a, d, rfl, -⟩
    · exact ⟨Instr.loadCal.opcodeRow, by decide, Laws.EncodesToRow.loadCal⟩
    · exact ⟨Instr.measure.opcodeRow, by decide, Laws.EncodesToRow.measure⟩
    · refine ⟨(Instr.rotateBy cw a.toNat d.toNat).opcodeRow, by simp [Instr.opcodeRow, commandRows], ?_⟩
      simpa [Laws.EncodesToRow.Statement, encode] using Laws.EncodesToRow.rotateBy cw a.toNat d.toNat
    · refine ⟨(Instr.rotateTo a.toInt d.toNat).opcodeRow, by simp [Instr.opcodeRow, commandRows], ?_⟩
      simpa [Laws.EncodesToRow.Statement, encode] using Laws.EncodesToRow.rotateTo a.toInt d.toNat
  · rintro ⟨r, hr, hs⟩
    simp only [commandRows, List.mem_cons, List.not_mem_nil, or_false] at hr
    rcases hr with rfl | rfl | rfl | rfl <;> rw [OpcodeRow.selects_command_iff] at hs
    · have hw : w = 0x0100000000000000 := (BitVec.and_allOnes (x := w)).symm.trans hs
      exact ⟨.loadCal, hw ▸ by decide⟩
    · have hw : w = 0x0200000000000000 := (BitVec.and_allOnes (x := w)).symm.trans hs
      exact ⟨.measure, hw ▸ by decide⟩
    · obtain ⟨ho, hv⟩ := opcode_rsv_of_masked hs (by decide) (by decide)
      exact ⟨_, decodeCommand_rotateBy hv ho⟩
    · obtain ⟨ho, hv⟩ := opcode_rsv_of_masked hs (by decide) (by decide)
      have hd : dirbitField w = 0 := by
        have h := congrArg dirbitField hs
        rw [dirbitField_and] at h
        exact (BitVec.and_allOnes (x := dirbitField w)).symm.trans h
      exact ⟨_, (decodeCommand_rotateTo hv ho).trans (if_pos hd)⟩

/-! ### The name of a one-degree rotation -/

theorem rotateByOf_one (cw : Bool) (delay : Nat) :
    rotateByOf cw 1 delay = if cw then .nudgeCw delay else .nudgeCcw delay := rfl

theorem rotateByOf_of_ne_one {angle : Nat} (h : angle ≠ 1) (cw : Bool) (delay : Nat) :
    rotateByOf cw angle delay = .rotateBy cw angle delay := if_neg h

theorem encode_rotateByOf (cw : Bool) (angle delay : Nat) :
    encode (rotateByOf cw angle delay) = encode (.rotateBy cw angle delay) := by
  by_cases h : angle = 1
  · subst h
    cases cw <;> rfl
  · rw [rotateByOf_of_ne_one h]

theorem wellFormed_rotateByOf {cw : Bool} {angle delay : Nat} (h : WellFormed (.rotateBy cw angle delay)) :
    WellFormed (rotateByOf cw angle delay) := by
  by_cases ha : angle = 1
  · subst ha
    obtain ⟨-, hd⟩ : angleFits 1 = true ∧ delayFits delay = true := Bool.and_eq_true_iff.mp h
    cases cw <;> exact hd
  · rwa [rotateByOf_of_ne_one ha]

theorem exec_rotateByOf (cw : Bool) (angle delay : Nat) (s : Machine.State) :
    Machine.exec (rotateByOf cw angle delay) s = Machine.exec (.rotateBy cw angle delay) s := by
  by_cases h : angle = 1
  · subst h
    cases cw <;> rfl
  · rw [rotateByOf_of_ne_one h]

theorem canonical_cases (i : Instr) :
    i.canonical = i ∨ ∃ cw delay, i = .rotateBy cw 1 delay ∧
      i.canonical = if cw then .nudgeCw delay else .nudgeCcw delay := by
  cases i with
  | rotateBy cw angle delay =>
    by_cases h : angle = 1
    · subst h
      exact .inr ⟨cw, delay, rfl, rotateByOf_one cw delay⟩
    · exact .inl (rotateByOf_of_ne_one h cw delay)
  | _ => exact .inl rfl

theorem exec_canonical (i : Instr) (s : Machine.State) : Machine.exec i.canonical s = Machine.exec i s := by
  cases i with
  | rotateBy cw angle delay => exact exec_rotateByOf cw angle delay s
  | _ => rfl

/-! ### Operands that fit their fields -/

theorem toNat_ofNat_of_delayFits {delay : Nat} (h : delayFits delay = true) : (BitVec.ofNat 32 delay).toNat = delay :=
  Nat.mod_eq_of_lt (of_decide_eq_true h)

theorem toNat_ofNat_of_angleFits {angle : Nat} (h : angleFits angle = true) : (BitVec.ofNat 16 angle).toNat = angle :=
  Nat.mod_eq_of_lt (of_decide_eq_true h)

theorem toInt_ofInt_of_targetFits {target : Int} (h : targetFits target = true) :
    (BitVec.ofInt 16 target).toInt = target := by
  obtain ⟨hlo, hhi⟩ := of_decide_eq_true h
  rw [BitVec.toInt_ofInt]
  exact Int.bmod_eq_of_le (by norm_num; omega) (by norm_num; omega)

theorem delayFits_toNat (d : BitVec 32) : delayFits d.toNat = true := decide_eq_true d.isLt

theorem angleFits_toNat (a : BitVec 16) : angleFits a.toNat = true := decide_eq_true a.isLt

theorem targetFits_toInt (a : BitVec 16) : targetFits a.toInt = true := decide_eq_true (Machine.signed16_within a)

/-- A micro-step has no operand to fit. -/
theorem wellFormed_of_not_isCommand {i : Instr} (h : i.isCommand = false) : WellFormed i := by
  cases i with
  | loadCal | measure | rotateBy | rotateTo | nudgeCw | nudgeCcw => cases h
  | _ => rfl

/-! ### Encoder and decoder are inverse -/

theorem decode_encode_rotateBy {cw : Bool} {angle delay : Nat} (h : WellFormed (.rotateBy cw angle delay)) :
    decode (encode (.rotateBy cw angle delay)) = .ok (rotateByOf cw angle delay) := by
  obtain ⟨ha, hd⟩ := Bool.and_eq_true_iff.mp h
  have hdec := decodeCommand_rotateByWord cw (BitVec.ofNat 16 angle) (BitVec.ofNat 32 delay)
  rwa [toNat_ofNat_of_angleFits ha, toNat_ofNat_of_delayFits hd] at hdec

theorem decode_encode_rotateTo {target : Int} {delay : Nat} (h : WellFormed (.rotateTo target delay)) :
    decode (encode (.rotateTo target delay)) = .ok (.rotateTo target delay) := by
  obtain ⟨ht, hd⟩ := Bool.and_eq_true_iff.mp h
  have hdec := decodeCommand_rotateToWord (BitVec.ofInt 16 target) (BitVec.ofNat 32 delay)
  rwa [toInt_ofInt_of_targetFits ht, toNat_ofNat_of_delayFits hd] at hdec

/-- A nudge has the code of the ROTATE_BY by one degree, whose decoding is the nudge (R112). -/
theorem decode_encode_canonical {i : Instr} (h : WellFormed i) : decode (encode i) = .ok i.canonical := by
  cases i with
  | loadCal | measure => decide
  | rotateBy cw angle delay => exact decode_encode_rotateBy h
  | rotateTo target delay => exact decode_encode_rotateTo h
  | nudgeCw delay => exact decode_encode_rotateBy (cw := true) (angle := 1) h
  | nudgeCcw delay => exact decode_encode_rotateBy (cw := false) (angle := 1) h
  | _ => rfl

/-- Settles O2: the code's fields carry the operands back, and only a one-degree ROTATE_BY has another name. -/
theorem decodeInvertsEncode : Obligations.DecodeInvertsEncode := fun i h =>
  ⟨decode_encode_canonical h, canonical_cases i, exec_canonical i⟩

theorem encode_decodeCommand {w : CommandWord} {i : Instr} (h : decodeCommand w = .ok i) :
    WellFormed i ∧ encode i = .command w := by
  rcases decodeCommand_ok_cases h with ⟨rfl, rfl⟩ | ⟨rfl, rfl⟩ | ⟨cw, a, d, rfl, rfl⟩ | ⟨a, d, rfl, rfl⟩
  · exact ⟨rfl, rfl⟩
  · exact ⟨rfl, rfl⟩
  · refine ⟨wellFormed_rotateByOf (Bool.and_eq_true_iff.mpr ⟨angleFits_toNat a, delayFits_toNat d⟩), ?_⟩
    rw [encode_rotateByOf]
    simp [encode]
  · refine ⟨Bool.and_eq_true_iff.mpr ⟨targetFits_toInt a, delayFits_toNat d⟩, ?_⟩
    simp [encode]

/-- Settles O3: a word is made of its fields, and a micro-step's number is its whole code. -/
theorem encodeInvertsDecode : Obligations.EncodeInvertsDecode := by
  intro c i h
  cases c with
  | command w => exact encode_decodeCommand h
  | microStep k =>
    have hk : decodeMicroStep k = .ok i := h
    have hnot := decodeMicroStep_not_command k
    have henc := encode_decodeMicroStep k
    simp only [hk, Except.toOption, Option.all_some] at hnot henc
    exact ⟨wellFormed_of_not_isCommand (by simpa using hnot), eq_of_beq henc⟩

/-- Settles O5: the words are `commandWord` written out. -/
theorem rotateWordsCarryTheirOperands : Obligations.RotateWordsCarryTheirOperands :=
  ⟨decodeCommand_rotateByWord, decodeCommand_rotateToWord⟩

/-- The code of a one-degree rotation is its word without delay, with the delay in the low bits (R112). -/
theorem encode_rotateBy_one (cw : Bool) (d : BitVec 32) :
    encode (.rotateBy cw 1 d.toNat) = .command (commandWord 0x10 cw 1 0 ||| d.setWidth 64) := by
  rw [← commandWord_eq_or]
  simp [encode]

/-- Settles O6: in the encoder and in `exec` a nudge is the arm of its ROTATE_BY. -/
theorem nudgesAreOneDegreeRotations : Obligations.NudgesAreOneDegreeRotations :=
  ⟨fun D => ⟨encode_rotateBy_one true D, encode_rotateBy_one false D, rfl, rfl⟩, fun _ _ => ⟨rfl, rfl⟩⟩

end Sys2Proof
end

section
/-! What a step makes of the code at the port and of the engine's number, and that a busy block does not look at the
port (R90, R91, R100, R103, R302). -/

namespace Sys2Proof.Machine

/-- Settles O4: the decoder's errors are R100's, its words are the rows', and the idle edge refuses an error. -/
theorem illegalWordsAreRefused : Obligations.IllegalWordsAreRefused :=
  ⟨decodeCommand_error_iff, fun _ _ hb hr hv hd => (step_idle hr hb).trans (idleEdge_illegal hv hd), rfl,
    decodeCommand_ok_iff_selected⟩

/-- Settles O8: the idle edge and the engine's edge each run what they decode. -/
theorem stepRunsTheDecodedInstruction : Obligations.StepRunsTheDecodedInstruction := fun s _ hr =>
  ⟨fun hb hv hd => (step_idle hr hb).trans (idleEdge_legal (s := s.clockEdge) hv hd),
    fun hb hp hd => (step_busy hr hb).trans (busyEdge_running (s := s.clockEdge) hp hd)⟩

theorem takeRotateBy_busy {s : State} (hb : s.busy = true) (cw : Bool) (angle delay : Nat) :
    takeRotateBy s cw angle delay = .next s := takeCommand_busy hb _ _

theorem execRotateTo_busy {s : State} (hb : s.busy = true) (target : Int) (delay : Nat) :
    execRotateTo target delay s = .next s := takeCommand_busy hb _ _

/-- Every command begins with `takeCommand`, which leaves a busy block as it is. -/
theorem exec_command_of_busy {s : State} {i : Instr} (hb : s.busy = true) (hi : i.isCommand = true) :
    exec i s = .next s := by
  cases i with
  | loadCal | measure => exact takeCommand_busy hb _ _
  | rotateBy | nudgeCw | nudgeCcw => exact takeRotateBy_busy hb _ _ _
  | rotateTo target delay => exact execRotateTo_busy hb target delay
  | _ => cases hi

/-- The edge of a busy block: reset, or the busy edge. -/
theorem step_busy_input {s : State} (hb : s.busy = true) (inp : PortIn) (rest : List PortIn) :
    step { s with inputs := inp :: rest } =
      if inp.rst then .next { s with inputs := rest, done := false }.resetEdge
      else busyEdge { s with inputs := rest, done := false } inp := by
  split
  next hr => exact step_rst (s := { s with inputs := inp :: rest }) hr
  next hr => exact step_busy (s := { s with inputs := inp :: rest }) (Bool.eq_false_of_not_eq_true hr) hb

theorem busyEdge_ignores_port (s : State) (inp : PortIn) (valid : Bool) (w : CommandWord) :
    busyEdge s { inp with cmdValid := valid, cmd := w } = busyEdge s inp := rfl

/-- Settles O14: reset comes before the port, and the busy edge reads only the timer and the bus. -/
theorem busyBlockIgnoresTheCommandPort : Obligations.BusyBlockIgnoresTheCommandPort := by
  refine ⟨fun s inp rest valid w hb => ?_, fun _ _ hb hi => exec_command_of_busy hb hi⟩
  rw [step_busy_input hb, step_busy_input hb, busyEdge_ignores_port]

end Sys2Proof.Machine
end

section
/-! Runs (log 1) and the sequencer's edges: a run is its steps one after the other, and a transaction is issued, waits for
its answer and is answered (R45, R60). -/

namespace Sys2Proof

open Machine

/-! ### Runs -/

theorem runsTo_zero (s : State) : RunsTo 0 s s := rfl

/-- A run of at least one step is a step and the rest of the run. -/
theorem runsTo_succ_iff {n : Nat} {s u : State} : RunsTo (n + 1) s u ↔ ∃ t, step s = .next t ∧ RunsTo n t u := by
  have hcore : Sys2Proof.core.step s = step s := rfl
  simp only [RunsTo, Host.Core.run, hcore]
  cases step s <;> simp

theorem runsTo_one {s t : State} (h : step s = .next t) : RunsTo 1 s t := runsTo_succ_iff.mpr ⟨t, h, runsTo_zero t⟩

theorem RunsTo.trans {m n : Nat} {s t u : State} (h : RunsTo m s t) (h' : RunsTo n t u) : RunsTo (m + n) s u := by
  induction m generalizing s with
  | zero => cases h; rwa [Nat.zero_add]
  | succ m ih =>
    obtain ⟨v, hv, hrest⟩ := runsTo_succ_iff.mp h
    rw [Nat.succ_add]
    exact runsTo_succ_iff.mpr ⟨v, hv, ih hrest⟩

end Sys2Proof

namespace Sys2Proof.Machine

variable {s : State} {t : Transaction} {k : Nat} {r : BitVec 24} {rest : List PortIn}

/-! ### The edges of a transaction -/

/-- A command is in progress outside the engine and outside a wait: the sequencer has the edge. -/
structure State.Sequencing (s : State) : Prop where
  busy : s.busy = true
  engPhase : s.engPhase = .off
  waiting : s.waiting = false

theorem step_sequencing (h : s.Sequencing) (hr : s.input.rst = false) :
    step s = .next (sequenceEdge s.clockEdge s.input) :=
  (step_busy hr h.busy).trans (busyEdge_off (s := s.clockEdge) h.engPhase)

theorem step_issue (h : s.Sequencing) (hf : s.flight = none) (hr : s.input.rst = false) (ht : nextRequest s = some t) :
    step s = .next (s.clockEdge.issue t) := by
  have ht' : nextRequest s.clockEdge = some t := ht
  rw [step_sequencing h hr]
  simp [sequenceEdge, sequenceAdvance, h.waiting, hf, ht']

theorem step_stalled (h : s.Sequencing) (hf : s.flight ≠ none) (hr : s.input.rst = false)
    (hv : s.input.busRespValid = false) : step s = .next s.clockEdge := by
  obtain ⟨t, ht⟩ := Option.ne_none_iff_exists'.mp hf
  rw [step_sequencing h hr]
  simp [sequenceEdge, h.waiting, ht, hv]

theorem step_answered (h : s.Sequencing) (hf : s.flight ≠ none) (hr : s.input.rst = false)
    (hv : s.input.busRespValid = true) :
    step s = .next (receive s.clockEdge s.input.busRespErr s.input.busRespRdata) := by
  obtain ⟨t, ht⟩ := Option.ne_none_iff_exists'.mp hf
  rw [step_sequencing h hr]
  simp [sequenceEdge, h.waiting, ht, hv]

/-! ### Whole transactions -/

theorem input_of_inputs {inp : PortIn} (h : s.inputs = inp :: rest) : s.input = inp := by simp [State.input, h]

theorem clockEdge_of_inputs {inp : PortIn} (h : s.inputs = inp :: rest) :
    s.clockEdge = { s with inputs := rest, done := false } := by simp [State.clockEdge, h]

/-- Edges without an answer leave the block stalled as it is (R45). -/
theorem runsTo_stalls (h : s.Sequencing) (hf : s.flight ≠ none) (hd : s.done = false)
    (hin : s.inputs = List.replicate k .quiet ++ rest) : RunsTo k s { s with inputs := rest } := by
  induction k generalizing s with
  | zero => cases hin; exact runsTo_zero s
  | succ k ih =>
    have hi : s.input = .quiet := input_of_inputs hin
    have hstep : step s = .next { s with inputs := List.replicate k .quiet ++ rest } := by
      rw [step_stalled h hf (by simp [hi, PortIn.quiet]) (by simp [hi, PortIn.quiet]), 
        clockEdge_of_inputs (rest := List.replicate k .quiet ++ rest) hin, ← hd]
    exact runsTo_succ_iff.mpr ⟨_, hstep, ih ⟨h.busy, h.engPhase, h.waiting⟩ hf hd rfl⟩

theorem length_answerAfter (k : Nat) (r : BitVec 24) : (answerAfter k r).length = 1 + k + 1 := by
  simp [answerAfter]
  omega

/-- The transaction that is due is issued, stalls and is answered with success. -/
theorem runsTo_transaction (h : s.Sequencing) (hf : s.flight = none) (ht : nextRequest s = some t)
    (hin : s.inputs = answerAfter k r ++ rest) :
    RunsTo (answerAfter k r).length s
      (receive { s with inputs := rest, done := false, flight := some t } false r) := by
  have hin' : s.inputs = .quiet :: (List.replicate k .quiet ++ (.answer r :: rest)) := by
    simp [hin, answerAfter, List.replicate_succ]
  have hissue : step s = .next (s.clockEdge.issue t) := step_issue h hf (by rw [input_of_inputs hin']; rfl) ht
  have hstalls : RunsTo k (s.clockEdge.issue t) { s.clockEdge.issue t with inputs := .answer r :: rest } :=
    runsTo_stalls ⟨h.busy, h.engPhase, h.waiting⟩ (by simp) rfl (by simp [hin'])
  have hanswer : step { s.clockEdge.issue t with inputs := .answer r :: rest } =
      .next (receive { s with inputs := rest, done := false, flight := some t } false r) :=
    step_answered ⟨h.busy, h.engPhase, h.waiting⟩ (by simp) rfl rfl
  rw [length_answerAfter]
  exact ((runsTo_one hissue).trans hstalls).trans (runsTo_one hanswer)

end Sys2Proof.Machine
end

section
/-! LOAD_CAL: its admission (R121), what an answer to each of its reads writes (R122, R123), the failure of a transaction
(R126, R197), and the whole command (R120 to R125). -/

namespace Sys2Proof.Machine

variable {s : State} {k : Nat} {r : BitVec 24} {rest : List PortIn}

/-! ### Admission -/

/-- LOAD_CAL begins with row 0 (R120). -/
def State.startLoad (s : State) : State := { s with busy := true, curOp := .loadCal, calIdx := 0 }

theorem exec_loadCal (s : State) :
    exec .loadCal s = takeCommand s (if s.calValid then some .calAlreadyLoaded else none) s.startLoad := rfl

theorem exec_loadCal_of_not_valid (hb : s.busy = false) (hv : s.calValid = false) :
    exec .loadCal s = .next s.startLoad := by
  rw [exec_loadCal, hv]
  exact takeCommand_started hb _

theorem exec_loadCal_of_valid (hb : s.busy = false) (hv : s.calValid = true) :
    exec .loadCal s = .next (s.refuse .calAlreadyLoaded) := by
  rw [exec_loadCal, hv]
  exact takeCommand_refused hb _ _

/-- Settles O10: the admission test of LOAD_CAL is `cal_valid`. -/
theorem loadCalAdmission : Obligations.LoadCalAdmission :=
  ⟨fun _ hb hv => exec_loadCal_of_not_valid hb hv, fun _ hb hv => exec_loadCal_of_valid hb hv⟩

/-! ### The rows of the table -/

/-- What the answer of a row leaves in each register (R122). -/
theorem writeCalRow_eq (i : Fin 17) (r : BitVec 24) (c : Cal) :
    writeCalRow i r c = {
      t1 := if i = 0 then le16 r else c.t1
      t2 := if i = 1 then le16 r else c.t2
      t3 := if i = 2 then le16 r else c.t3
      p1 := if i = 3 then le16 r else c.p1
      p2 := if i = 4 then le16 r else c.p2
      p3 := if i = 5 then le16 r else c.p3
      p4 := if i = 6 then le16 r else c.p4
      p5 := if i = 7 then le16 r else c.p5
      p6 := if i = 8 then le16 r else c.p6
      p7 := if i = 9 then le16 r else c.p7
      p8 := if i = 10 then le16 r else c.p8
      p9 := if i = 11 then le16 r else c.p9
      h1 := if i = 12 then le8 r else c.h1
      h2 := if i = 13 then le16 r else c.h2
      h3 := if i = 14 then le8 r else c.h3
      h4 := if i = 15 then h4Bits r else c.h4
      h5 := if i = 15 then h5Bits r else c.h5
      h6 := if i = 16 then le8 r else c.h6 } := by
  fin_cases i <;> rfl

/-- LOAD_CAL is in progress: the sequencer has the edge. -/
structure State.Loading (s : State) : Prop extends s.Sequencing where
  curOp : s.curOp = .loadCal

theorem nextRequest_loadCal (h : s.curOp = .loadCal) : nextRequest s = some (calRequest s) := by simp [nextRequest, h]

theorem step_calRequest (h : s.Loading) (hf : s.flight = none) (hr : s.input.rst = false) :
    step s = .next (s.clockEdge.issue (calRequest s)) :=
  step_issue h.toSequencing hf hr (nextRequest_loadCal h.curOp)

theorem step_calAnswered (h : s.Loading) (hf : s.flight ≠ none) (hr : s.input.rst = false)
    (hv : s.input.busRespValid = true) (he : s.input.busRespErr = false) :
    step s = .next (calAnswered s.clockEdge.endTransaction s.input.busRespRdata) := by
  rw [step_answered h.toSequencing hf hr hv, he, receive_loadCal (s := s.clockEdge) h.curOp]

/-- Settles O30: the answer to row `cal_idx` is `calAnswered`, its registers are those of `writeCalRow_eq`, and a signed
register reads in two's complement of its width. -/
theorem calibrationRowsAreWrittenPerTable : Obligations.CalibrationRowsAreWrittenPerTable := by
  refine ⟨by decide, by decide, ?_, ?_, ?_⟩
  · intro s hb hop hp hw hf hr
    exact ⟨_, step_calRequest ⟨⟨hb, hp, hw⟩, hop⟩ hf hr⟩
  · rintro s r i hb hop hp hw hf rfl hr hv he rfl
    exact ⟨_, step_calAnswered ⟨⟨hb, hp, hw⟩, hop⟩ hf hr hv he, writeCalRow_eq _ _ _⟩
  · intro c signed
    exact ⟨rfl, toInt_eq_ite c.t2, toInt_eq_ite c.t3, rfl, toInt_eq_ite c.p2, toInt_eq_ite c.p3, toInt_eq_ite c.p4,
      toInt_eq_ite c.p5, toInt_eq_ite c.p6, toInt_eq_ite c.p7, toInt_eq_ite c.p8, toInt_eq_ite c.p9, rfl,
      toInt_eq_ite c.h2, rfl, toInt_eq_ite c.h4, toInt_eq_ite c.h5, toInt_eq_ite c.h6⟩

/-! ### The failure of a transaction -/

/-- A failed answer ends the transaction and goes to the command in progress (R264). -/
theorem step_failed (h : s.Inv) (hf : s.flight ≠ none) (hr : s.input.rst = false) (hv : s.input.busRespValid = true)
    (he : s.input.busRespErr = true) : step s = .next (receive s.clockEdge true s.input.busRespRdata) := by
  rw [step_of_flight h hf hr, hv, if_pos rfl, he]

/-- Settles O33: only LOAD_CAL and MEASURE have a transaction in flight, and each has its own BusError. -/
theorem busErrorEndsTheCommand : Obligations.BusErrorEndsTheCommand := by
  intro s h hf hr hv he
  obtain ⟨t, ht⟩ := Option.ne_none_iff_exists'.mp hf
  have hb : s.busy = true := (h.flight_is_due t ht).1
  refine ⟨fun hop => ⟨h.load_once hb hop, ?_⟩, fun hop => ?_, h.curOp_of_flight hf⟩
  · rw [step_failed h hf hr hv he, receive_loadCal_failed (s := s.clockEdge) hop]
    rfl
  · rw [step_failed h hf hr hv he, receive_measure_failed (s := s.clockEdge) hop]
    rfl

/-! ### The whole command -/

/-- The registers after the answers to the rows from row `i` on (R123). -/
def writeCalRows : Fin 17 → List (BitVec 24) → Cal → Cal
  | _, [], c => c
  | i, r :: rs, c => writeCalRows (i + 1) rs (writeCalRow i r c)

/-- The state in which LOAD_CAL ends with OK (R125), `rest` the inputs still to come. -/
def State.loaded (s : State) (c : Cal) (rest : List PortIn) : State :=
  { s with cal := c, calValid := true, calIdx := 0, flight := none, inputs := rest }.complete .ok

/-- One read of LOAD_CAL, from its issue to its answer. -/
theorem runsTo_calAnswered (h : s.Loading) (hf : s.flight = none) (hin : s.inputs = answerAfter k r ++ rest) :
    RunsTo (answerAfter k r).length s
      (calAnswered { s with inputs := rest, done := false, flight := none } r) := by
  have hrun := runsTo_transaction h.toSequencing hf (nextRequest_loadCal h.curOp) hin
  rwa [receive_loadCal (s := { s with inputs := rest, done := false, flight := some (calRequest s) }) h.curOp] at hrun

/-- The reads of LOAD_CAL from row `cal_idx` to row 16, one after the other. -/
theorem runsTo_loaded (as : List (Nat × BitVec 24)) (h : s.Loading) (hf : s.flight = none)
    (hlen : s.calIdx.val + as.length = 17) (hin : s.inputs = (as.flatMap fun a => answerAfter a.1 a.2) ++ rest) :
    RunsTo (as.flatMap fun a => answerAfter a.1 a.2).length s
      (s.loaded (writeCalRows s.calIdx (as.map (·.2)) s.cal) rest) := by
  induction as generalizing s with
  | nil => exact absurd hlen (by simpa using s.calIdx.isLt.ne)
  | cons a as ih =>
    rw [List.flatMap_cons, List.append_assoc] at hin
    have hrow := runsTo_calAnswered h hf hin
    rw [List.flatMap_cons, List.length_append]
    refine hrow.trans ?_
    rcases calAnswered_cases { s with inputs := _, done := false, flight := none } a.2 with ⟨hi, he⟩ | ⟨hi, he⟩ <;>
      rw [he]
    · have hval : s.calIdx.val = 16 := congrArg Fin.val hi
      obtain rfl : as = [] := List.length_eq_zero_iff.mp (by rw [List.length_cons] at hlen; omega)
      exact runsTo_zero _
    · have hnext : (s.calIdx + 1).val = s.calIdx.val + 1 := Fin.val_add_one_of_lt (Fin.lt_last_iff_ne_last.mpr hi)
      exact ih ⟨⟨h.busy, h.engPhase, h.waiting⟩, h.curOp⟩ rfl (by rw [List.length_cons] at hlen; simp only [hnext]; omega)
        rfl

theorem writeCalRows_ofFn (a : Fin 17 → Nat × BitVec 24) (c : Cal) :
    writeCalRows 0 ((List.ofFn a).map (·.2)) c = {
      t1 := le16 (a 0).2, t2 := le16 (a 1).2, t3 := le16 (a 2).2
      p1 := le16 (a 3).2, p2 := le16 (a 4).2, p3 := le16 (a 5).2, p4 := le16 (a 6).2, p5 := le16 (a 7).2
      p6 := le16 (a 8).2, p7 := le16 (a 9).2, p8 := le16 (a 10).2, p9 := le16 (a 11).2
      h1 := le8 (a 12).2, h2 := le16 (a 13).2, h3 := le8 (a 14).2
      h4 := h4Bits (a 15).2, h5 := h5Bits (a 15).2, h6 := le8 (a 16).2 } := rfl

/-- A block at rest that takes LOAD_CAL and completes it is the block it was, but for what LOAD_CAL is for. -/
theorem loaded_startLoad (h : s.Ready) (c : Cal) :
    s.clockEdge.startLoad.loaded c rest =
      { s with cal := c, calValid := true, curOp := .loadCal, err := .ok, done := true, inputs := rest } := by
  obtain ⟨-, hf, hw, -⟩ := h.inv.idle_at_rest h.idle
  have hi : s.calIdx = 0 := not_not.mp fun hi => nomatch h.idle.symm.trans (h.inv.cal_idx_only_in_load hi).1
  simp [State.loaded, State.startLoad, State.complete, h.idle, hf, hw, hi]

/-- The edge that takes the word of LOAD_CAL (R95). -/
theorem step_startLoad (h : s.Ready) (hv : s.calValid = false) (hi : s.input = .offer 0x0100000000000000) :
    step s = .next s.clockEdge.startLoad := by
  rw [step_idle (hi ▸ rfl) h.idle, hi, idleEdge_legal (i := .loadCal) rfl (by decide)]
  exact exec_loadCal_of_not_valid (s := s.clockEdge) h.idle hv

/-- Settles O34: the word is taken, and the reads of all rows follow. -/
theorem loadCalRunsToCompletion : Obligations.LoadCalRunsToCompletion := by
  intro s a rest h hv hin
  obtain ⟨-, hf, hw, hp⟩ := h.inv.idle_at_rest h.idle
  have htake := runsTo_one (step_startLoad h hv (input_of_inputs hin))
  have hload := runsTo_loaded (s := s.clockEdge.startLoad) (rest := rest) (List.ofFn a) ⟨⟨rfl, hp, hw⟩, rfl⟩ hf
    (by simp [State.startLoad]) (by simp [State.startLoad, hin, loadInputs])
  rw [loaded_startLoad h, show s.clockEdge.startLoad.calIdx = 0 from rfl, writeCalRows_ofFn] at hload
  exact htake.trans hload

end Sys2Proof.Machine
end

section
/-! What each command leaves alone: the calibration is LOAD_CAL's, the measurement MEASURE's, and the motor's registers are
the motor commands' (R120, R128, R190, R226, R230, R238). -/

namespace Sys2Proof.Machine

variable {s s' : State} {inp : PortIn}

/-- The calibration and its flag are the same in both states (R20, R35). -/
structure CalKept (s s' : State) : Prop where
  cal : s'.cal = s.cal
  calValid : s'.calValid = s.calValid

/-- The raw values, `t_fine`, the triple and its flag are the same in both states (R24, R35). -/
structure MeasurementKept (s s' : State) : Prop where
  adcP : s'.adcP = s.adcP
  adcT : s'.adcT = s.adcT
  adcH : s'.adcH = s.adcH
  tFine : s'.tFine = s.tFine
  tRes : s'.tRes = s.tRes
  pRes : s'.pRes = s.pRes
  hRes : s'.hRes = s.hRes
  resValid : s'.resValid = s.resValid

/-! ### The events of one edge -/

theorem PortStep.calKept (hs : PortStep inp s s') : CalKept s s' := by
  cases hs <;> exact ⟨rfl, rfl⟩

theorem EngineStep.calKept (hs : EngineStep s s') : CalKept s s' := by
  cases hs <;> exact ⟨rfl, rfl⟩

/-- Only an answered read of LOAD_CAL writes the calibration (R123, R125). -/
theorem SequencerStep.calKept_or (hs : SequencerStep s s') : CalKept s s' ∨ s.curOp = .loadCal := by
  cases hs with
  | calRow _ _ hop | calEnd _ _ hop => exact .inr hop
  | _ => exact .inl ⟨rfl, rfl⟩

/-- Outside the engine only an answered raw read writes a register of the measurement (R199 to R201). -/
theorem SequencerStep.measurementKept_or (hs : SequencerStep s s') : MeasurementKept s s' ∨ s.curOp = .measure := by
  cases hs with
  | pressureRead _ _ hop | temperatureRead _ _ hop | humidityRead _ _ hop => exact .inr hop
  | _ => exact .inl ⟨rfl, rfl, rfl, rfl, rfl, rfl, rfl, rfl⟩

theorem EngineStep.curOp_eq (hs : EngineStep s s') : s'.curOp = s.curOp := by
  cases hs <;> rfl

theorem SequencerStep.curOp_eq (hs : SequencerStep s s') : s'.curOp = s.curOp := by
  cases hs <;> rfl

/-- The engine runs for MEASURE alone. -/
theorem EngineStep.curOp_eq_measure (hs : EngineStep s s') (h : s.Inv) : s.curOp = .measure := by
  cases hs with
  | work _ hp | commit hp | finish hp => exact h.curOp_eq_measure (by simp [hp])

/-! ### The step -/

/-- A step without reset keeps the calibration, except in a LOAD_CAL. -/
theorem calKept_of_step (h : s.Inv) (hr : s.input.rst = false) (hs : step s = .next s')
    (hop : ¬ (s.busy = true ∧ s.curOp = .loadCal)) : CalKept s s' := by
  rcases step_cases_of_inv h hr hs with ⟨-, hs⟩ | ⟨-, hs⟩ | ⟨hb, -, hs⟩
  · exact { hs.calKept with }
  · exact { hs.calKept with }
  · rcases hs.calKept_or with hk | hop'
    · exact { hk with }
    · exact absurd ⟨hb, hop'⟩ hop

/-- A step of a busy block without reset keeps the measurement, except in a MEASURE. -/
theorem measurementKept_of_step (h : s.Inv) (hb : s.busy = true) (hr : s.input.rst = false) (hs : step s = .next s')
    (hop : s.curOp ≠ .measure) : MeasurementKept s s' := by
  rcases step_cases_of_inv h hr hs with ⟨hb', -⟩ | ⟨-, hs⟩ | ⟨-, -, hs⟩
  · exact nomatch hb.symm.trans hb'
  · exact absurd (hs.curOp_eq_measure h.clockEdge) hop
  · rcases hs.measurementKept_or with hk | hop'
    · exact { hk with }
    · exact absurd hop' hop

/-- A step without reset keeps the motor's registers, except in a motor command. -/
theorem motorKept_of_step (h : s.Inv) (hr : s.input.rst = false) (hs : step s = .next s') (hm : ¬ s.motorRunning) :
    MotorKept s s' := by
  rcases step_motor_cases h hr hs with hk | ⟨hm', -⟩ | ⟨hm', -⟩
  · exact hk
  · exact absurd hm' hm
  · exact absurd hm' hm

/-- A busy block goes on with its command or completes it: `cur_op` stays. -/
theorem curOp_of_step (h : s.Inv) (hb : s.busy = true) (hr : s.input.rst = false) (hs : step s = .next s') :
    s'.curOp = s.curOp := by
  rcases step_cases_of_inv h hr hs with ⟨hb', -⟩ | ⟨-, hs⟩ | ⟨-, -, hs⟩
  · exact nomatch hb.symm.trans hb'
  · exact hs.curOp_eq
  · exact hs.curOp_eq

/-- Settles O55: only LOAD_CAL writes the calibration, and by the invariant none is in progress (R121). -/
theorem calibrationIsImmutableOnceValid : Obligations.CalibrationIsImmutableOnceValid := by
  intro s s' h hv hr hs
  have hload : ¬ (s.busy = true ∧ s.curOp = .loadCal) := fun ⟨hb, hop⟩ => nomatch hv.symm.trans (h.load_once hb hop)
  have hk := calKept_of_step h hr hs hload
  exact ⟨hk.cal, hk.calValid.trans hv⟩

/-- A motor command has nothing in flight (R238). -/
theorem State.Inv.flight_eq_none (h : s.Inv) (hop : s.curOp.isMotor) : s.flight = none := by
  by_contra hf
  rcases h.curOp_of_flight hf with hl | hm
  · exact (isMotor_ne hop).1 hl
  · exact (isMotor_ne hop).2 hm

/-- Settles O58: each command's part, by what a step of another command keeps; `mstate` and the bus by the invariant. -/
theorem commandsTouchOnlyTheirOwnState : Obligations.CommandsTouchOnlyTheirOwnState := by
  intro s s' h hb hr hs
  have h' : s'.Inv := stepKeepsTheInvariant s s' h hs
  have hop' : s'.curOp = s.curOp := curOp_of_step h hb hr hs
  refine ⟨fun hop => ?_, fun hop => ?_, fun ⟨_, hop⟩ => ?_, params_of_step h hr hs⟩
  · have hk := measurementKept_of_step h hb hr hs (by simp [hop])
    have hm := motorKept_of_step h hr hs (not_motorRunning_of_loadCal hop)
    exact ⟨hk.adcP, hk.adcT, hk.adcH, hk.tFine, hk.tRes, hk.pRes, hk.hRes, h'.mstate_eq_idle (by simp [hop', hop]),
      hk.resValid, hm.pos, hm.seqIdx, hm.coil⟩
  · have hk := calKept_of_step h hr hs (by simp [hop])
    have hm := motorKept_of_step h hr hs (not_motorRunning_of_measure hop)
    exact ⟨hk.cal, hk.calValid, hm.pos, hm.seqIdx, hm.coil⟩
  · have ⟨hload, hmeasure⟩ := isMotor_ne hop
    have hc := calKept_of_step h hr hs fun hl => hload hl.2
    have hk := measurementKept_of_step h hb hr hs hmeasure
    exact ⟨hc.cal, hc.calValid, hk.adcP, hk.adcT, hk.adcH, hk.tFine, hk.tRes, hk.pRes, hk.hRes, hk.resValid,
      h'.mstate_eq_idle (hop' ▸ hmeasure), h'.flight_eq_none (hop' ▸ hop)⟩

end Sys2Proof.Machine
end

section
/-! The engine's micro-steps one at a time (R150 to R173): each writes its register by its rule's expression, which is
the model's up to the spelling of the shifts. With them the zero test of the denominator (R161), the division's sign
(R162), the clamps (R170, R171), and that the invariant leaves no stop (R103, R145). -/

namespace Sys2Proof.Machine

/-! ### The shifts and the division of R14 -/

/-- `1 << 47` of E9 is the power (R160). -/
theorem shl_one (n : Nat) : shl 1 n = 2 ^ n := one_mul _

/-- A floor shift gives 0 exactly below the bit it keeps (R161). -/
theorem asr_eq_zero_iff (v : Int) (n : Nat) : asr v n = 0 ↔ 0 ≤ v ∧ v < 2 ^ n := by
  rw [asr_eq_div, Int.ediv_eq_iff_of_pos (by positivity), Int.zero_mul, Int.zero_add]

/-- Truncated division is division of the magnitudes under the product of the signs (R14). -/
theorem tdiv_eq_sign_mul (a b : Int) : Int.tdiv a b = a.sign * b.sign * (a.natAbs / b.natAbs : Nat) := by
  have hmag : (Int.tdiv a b).natAbs = a.natAbs / b.natAbs := Int.natAbs_tdiv a b
  rw [← Int.sign_mul_natAbs (Int.tdiv a b), hmag, Int.sign_tdiv]
  split
  next hlt => simp [Nat.div_eq_of_lt hlt]
  next => rfl

theorem clamp_of_le_low {v lo hi : Int} (h : v ≤ lo) : clamp v lo hi = lo := max_eq_left ((min_le_left v hi).trans h)

theorem clamp_of_high_le {v lo hi : Int} (hr : lo ≤ hi) (h : hi ≤ v) : clamp v lo hi = hi := by
  rw [clamp, min_eq_right h, max_eq_right hr]

theorem clamp_of_within {v lo hi : Int} (h : within lo hi v) : clamp v lo hi = v := by
  rw [clamp, min_eq_left h.2, max_eq_right h.1]

/-- The two clamps of E19 and E20 are the clamp of CompH (R170, R171, R175). -/
theorem min_max_eq_clamp (v : Int) {lo hi : Int} (h : lo ≤ hi) : min (max lo v) hi = clamp v lo hi := by
  rw [clamp, max_min_distrib_left, max_eq_right h]

/-! ### The phases -/

/-- Settles O15: the model's expressions of E0 to E3 are the rules', their shifts read as division and product. -/
theorem temperatureMicroSteps : Obligations.TemperatureMicroSteps :=
  ⟨⟨rfl, fun _ => rfl⟩, ⟨rfl, fun _ => rfl⟩, ⟨rfl, fun _ => rfl⟩, rfl, fun _ => rfl⟩

/-- Settles O16: the model's expressions of E4 to E9 are the rules', their shifts read as division and product. -/
theorem pressureMicroStepsToTheDenominator : Obligations.PressureMicroStepsToTheDenominator :=
  ⟨⟨rfl, fun _ => rfl⟩, ⟨rfl, fun _ => rfl⟩, ⟨rfl, fun _ => rfl⟩, ⟨rfl, fun _ => rfl⟩, ⟨rfl, fun _ => rfl⟩, rfl,
    fun _ => rfl⟩

theorem exec_e10_of_zero {s : State} (h : s.v1 = 0) : exec .e10 s = .next { s with pW := 0, engStep := 16 } := if_pos h

theorem exec_e10_of_ne_zero {s : State} (h : s.v1 ≠ 0) :
    exec .e10 s = .next { s with acc := 1048576 - s.rawP, engStep := 11 } := if_neg h

/-- The denominator is 0 exactly when its product is below the shift (R161). -/
theorem denominator_eq_zero_iff (c P1 : Int) :
    asr ((shl 1 47 + c) * P1) 33 = 0 ↔ 0 ≤ (2 ^ 47 + c) * P1 ∧ (2 ^ 47 + c) * P1 < 2 ^ 33 := by
  rw [asr_eq_zero_iff, shl_one]

theorem denominator_of_P1_zero (c : Int) : asr ((shl 1 47 + c) * 0) 33 = 0 :=
  (denominator_eq_zero_iff c 0).mpr (by simp)

/-- Settles O17: the two branches of E10, and E9's shift is zero below 2^33. -/
theorem zeroDenominatorSkipsTheDivision : Obligations.ZeroDenominatorSkipsTheDivision := by
  refine ⟨rfl, fun _ => exec_e10_of_zero, fun _ => exec_e10_of_ne_zero, fun s t h => ?_⟩
  cases h
  refine ⟨denominator_eq_zero_iff s.v1 s.cal.P1, fun hP1 => ?_⟩
  show asr ((shl 1 47 + s.v1) * s.cal.P1) 33 = 0
  rw [hP1, denominator_of_P1_zero]

theorem exec_e11 (s : State) :
    exec .e11 s = .next { s with acc := tdiv ((shl s.acc 31 - s.v2) * 3125) s.v1, engStep := s.engStep + 1 } := rfl

/-- Settles O18: with a divisor the quotient is the truncated one, by signs and magnitudes. -/
theorem divisionTruncatesTowardZero : Obligations.DivisionTruncatesTowardZero := by
  refine ⟨rfl, fun s h => ?_⟩
  rw [exec_e11, tdiv_of_ne_zero _ h, tdiv_eq_sign_mul, shl_eq_mul]

/-- Settles O19: E11 writes `acc` alone, whatever the quotient. -/
theorem zeroDivisorLeavesOnlyTheQuotientOpen : Obligations.ZeroDivisorLeavesOnlyTheQuotientOpen :=
  fun s _ => ⟨_, exec_e11 s⟩

/-- The low bits of a register written with an integer (R166). -/
theorem toNat_ofInt_eq_emod (w : Nat) (v : Int) : ((BitVec.ofInt w v).toNat : Int) = v % 2 ^ w := by
  rw [BitVec.toNat_ofInt, Int.toNat_of_nonneg (Int.emod_nonneg _ (by positivity))]
  push_cast
  rfl

/-- Settles O20: the model's expressions of E12 to E15 are the rules', and `p_w` keeps the low 32 bits of `acc`. -/
theorem pressureMicroStepsAfterTheDivision : Obligations.PressureMicroStepsAfterTheDivision :=
  ⟨⟨rfl, fun _ => rfl⟩, ⟨rfl, fun _ => rfl⟩, ⟨rfl, fun _ => rfl⟩, rfl,
    fun s => ⟨BitVec.ofInt 32 s.acc, toNat_ofInt_eq_emod 32 s.acc, rfl⟩⟩

/-- The lower clamp of E19 (R170). -/
theorem exec_e19 (s : State) : exec .e19 s = .next { s with acc := max 0 s.acc, engStep := s.engStep + 1 } := by
  have h : (if s.acc < 0 then 0 else s.acc) = max 0 s.acc := by grind
  rw [← h]
  rfl

/-- The upper clamp of E20 (R171). -/
theorem exec_e20 (s : State) :
    exec .e20 s = .next { s with acc := min s.acc 419430400, engStep := s.engStep + 1 } := by
  have h : (if s.acc > 419430400 then 419430400 else s.acc) = min s.acc 419430400 := by grind
  rw [← h]
  rfl

/-- Settles O21: the model's expressions of E16 to E21 are the rules', the conditionals of E19 and E20 read as clamps. -/
theorem humidityMicroSteps : Obligations.HumidityMicroSteps :=
  ⟨⟨rfl, fun _ => rfl⟩, ⟨rfl, fun _ => rfl⟩, ⟨rfl, fun _ => rfl⟩, ⟨rfl, exec_e19⟩, ⟨rfl, exec_e20⟩, rfl, fun _ => rfl⟩

/-- Settles O22: E22 leaves the engine done, and the edge after it completes MEASURE. -/
theorem commitWritesTheTripleTogether : Obligations.CommitWritesTheTripleTogether := by
  refine ⟨rfl, fun s => ⟨rfl, fun t h hb hr => ?_⟩⟩
  cases h
  exact ⟨_, (step_busy hr hb).trans (busyEdge_done rfl), rfl, rfl, rfl, rfl, rfl, rfl, rfl, rfl, rfl⟩

/-! ### The closed forms at their ends -/

/-- CompH from the clamped value on (R175). -/
theorem compH_within (adcH tf H1 H2 H3 H4 H5 H6 : Int) : within 0 102400 (compH adcH tf H1 H2 H3 H4 H5 H6) :=
  within_asr (clamp_within _ (show (0 : Int) ≤ 419430400 by decide)) 12

/-- Settles O27: the clamp's range is shifted, and outside it the value is an end of it. -/
theorem humidityIsClamped : Obligations.HumidityIsClamped := by
  intro adcH tf H1 H2 H3 H4 H5 H6 h3
  have hcompH : compH adcH tf H1 H2 H3 H4 H5 H6 = asr (clamp h3 0 419430400) 12 := rfl
  obtain ⟨hlo, hhi⟩ := clamp_within h3 (show (0 : Int) ≤ 419430400 by decide)
  obtain ⟨hHlo, hHhi⟩ := compH_within adcH tf H1 H2 H3 H4 H5 H6
  refine ⟨hlo, hhi, hHlo, hHhi, fun hneg => ?_, fun hbig => ?_, fun h0 hceil => ?_⟩
  · rw [hcompH, clamp_of_le_low hneg.le]; rfl
  · rw [hcompH, clamp_of_high_le (by decide) hbig.le]; rfl
  · rw [hcompH, clamp_of_within ⟨h0, hceil⟩, asr_eq_div]

/-- The sentinel of CompP (R174). -/
theorem compP_of_zero {tf P1 P2 P3 : Int} (h : compDenominator tf P1 P2 P3 = 0) (adcP P4 P5 P6 P7 P8 P9 : Int) :
    compP adcP tf P1 P2 P3 P4 P5 P6 P7 P8 P9 = 0 := if_pos h

/-- Settles O28: the denominator of CompP is E9's expression. -/
theorem pressureSentinel : Obligations.PressureSentinel := by
  intro adcP tf P1 P2 P3 P4 P5 P6 P7 P8 P9 a c
  refine ⟨denominator_eq_zero_iff c P1, ?_, fun h => compP_of_zero h adcP P4 P5 P6 P7 P8 P9⟩
  rintro rfl
  exact denominator_of_P1_zero c

/-! ### No stop -/

/-- Settles O54: the only stop is a running engine with a number above 22, which the invariant excludes (R103). -/
theorem invariantStatesNeverStop : Obligations.InvariantStatesNeverStop := by
  intro s h
  rcases step_next_or_stuck s with hnext | ⟨-, -, -, hstep, -⟩
  · exact hnext
  · exact absurd h.eng_step_numbered (Nat.not_le.mpr hstep)

end Sys2Proof.Machine
end

section
/-! The interval analysis of R147: one rule for each operation on integers, the bounds of the micro-steps' rules, and that
each micro-step leads from its ranges to those of the next. -/

namespace Sys2Proof

open Machine

/-! ### Interval arithmetic: one rule for each operation -/

section
variable {a b c d x y : Int}

theorem within.mono (h : within a b x) (ha : c ≤ a) (hb : b ≤ d) : within c d x := ⟨ha.trans h.1, h.2.trans hb⟩

theorem within.const (x : Int) : within x x x := ⟨le_rfl, le_rfl⟩

theorem within.add (hx : within a b x) (hy : within c d y) : within (a + c) (b + d) (x + y) :=
  ⟨add_le_add hx.1 hy.1, add_le_add hx.2 hy.2⟩

theorem within.sub (hx : within a b x) (hy : within c d y) : within (a - d) (b - c) (x - y) :=
  ⟨sub_le_sub hx.1 hy.2, sub_le_sub hx.2 hy.1⟩

theorem within.shl (hx : within a b x) (n : Nat) : within (shl a n) (shl b n) (shl x n) :=
  ⟨mul_le_mul_of_nonneg_right hx.1 (by positivity), mul_le_mul_of_nonneg_right hx.2 (by positivity)⟩

theorem within.mul_le_max (hx : within a b x) (y : Int) : x * y ≤ max (a * y) (b * y) := by
  obtain ⟨hlo, hhi⟩ := hx
  rcases le_total 0 y with hy | hy
  · exact le_max_of_le_right (mul_le_mul_of_nonneg_right hhi hy)
  · exact le_max_of_le_left (mul_le_mul_of_nonpos_right hlo hy)

theorem within.min_le_mul (hx : within a b x) (y : Int) : min (a * y) (b * y) ≤ x * y := by
  obtain ⟨hlo, hhi⟩ := hx
  rcases le_total 0 y with hy | hy
  · exact min_le_of_left_le (mul_le_mul_of_nonneg_right hlo hy)
  · exact min_le_of_right_le (mul_le_mul_of_nonpos_right hhi hy)

/-- A product is bounded by the products of the ends. -/
theorem within.mul (hx : within a b x) (hy : within c d y) :
    within (min (min (c * a) (d * a)) (min (c * b) (d * b))) (max (max (c * a) (d * a)) (max (c * b) (d * b)))
      (x * y) := by
  constructor
  · refine (min_le_min ?_ ?_).trans (hx.min_le_mul y) <;> rw [mul_comm _ y] <;> exact hy.min_le_mul _
  · refine (hx.mul_le_max y).trans (max_le_max ?_ ?_) <;> rw [mul_comm _ y] <;> exact hy.mul_le_max _

/-- A square is no product of two values: it is not negative. -/
theorem within.sq (hx : within a b x) : within 0 (max (a * a) (b * b)) (x * x) := by
  obtain ⟨hlo, hhi⟩ := hx
  refine ⟨mul_self_nonneg x, ?_⟩
  rcases le_total 0 x with h | h
  · exact le_max_of_le_right (mul_self_le_mul_self h hhi)
  · exact le_max_of_le_left (mul_le_mul_of_nonpos_of_nonpos hlo hlo (hlo.trans h) h)

/-- A truncated quotient is no larger than its numerator, whatever the divisor (R147). -/
theorem within.tdiv (hx : within (-a) a x) (y : Int) : within (-a) a (Int.tdiv x y) := by
  have hle : (Int.tdiv x y).natAbs ≤ x.natAbs := Int.natAbs_tdiv_le_natAbs x y
  simp only [within] at hx ⊢
  omega

end


end Sys2Proof

namespace Sys2Proof.Machine

variable {s s' : State}

/-! ### The bounds of the micro-steps' rules (R147) -/

/-- `t_w` (R153). -/
theorem e3Result_within (h : fineRange s.fine) : within (-81918) 81917 (asr (s.fine * 5 + 128) 8) :=
  within_asr ((h.mul (.const 5)).add (.const 128)) 8

/-- The cubic term of `v1` after E8 (R159), before the shift. -/
theorem e8Product_within (h : within (-4322224) 4066144 s.v1) :
    within (-612159334192775168) 612140652572468992 (s.v1 * s.v1 * s.cal.P3) :=
  h.sq.mul (signed16_within s.cal.p3)

/-- `v1` after E8 (R159). -/
theorem e8Result_within (h : within (-4322224) 4066144 s.v1) :
    within (-2971348780548096) 2971293509298279
      (asr (s.v1 * s.v1 * s.cal.P3) 8 + shl (s.v1 * s.cal.P2) 12) :=
  (within_asr (e8Product_within h) 8).add ((h.mul (signed16_within s.cal.p2)).shl 12)

/-- The product of E9 before the shift (R160). -/
theorem e9Product_within (h : within (-2971348780548096) 2971293509298279 s.v1) :
    within (-185504111033853050880) 203946951431229134745 ((shl 1 47 + s.v1) * s.cal.P1) :=
  (((within.const 1).shl 47).add h).mul (unsigned_within s.cal.p1)

/-- The numerator of the division (R162). -/
theorem e11Numerator_within (hacc : within 1 1048576 s.acc)
    (hv2 : within (-631848478303059968) 631830328845559552 s.v2) :
    within (-1981563369114828800000) 1981563369114828800000 ((shl s.acc 31 - s.v2) * 3125) :=
  (((hacc.shl 31).sub hv2).mul (.const 3125)).mono (by decide) (by decide)

/-- The product of E12 before the shift (R163): the square is taken first, which keeps its sign. -/
theorem e12Product_within (h : within (-1981563369114828800000) 1981563369114828800000 s.acc) :
    within (-1917281926668804320598457057280000000000) 1917223415867819554841602856320000000000
      (s.cal.P9 * asr s.acc 13 * asr s.acc 13) := by
  rw [mul_assoc]
  exact (signed16_within s.cal.p9).mul (within_asr h 13).sq

/-- The sum of E14 before the shift (R165). -/
theorem e14Sum_within (hacc : within (-1981563369114828800000) 1981563369114828800000 s.acc)
    (hv1 : within (-57139454086685309427930625000000) 57137710328931199158477868328094 s.v1)
    (hv2 : within (-123847710569676800000) 123847710569676800000 s.v2) :
    within (-57139454088790720507615130600000) 57137710331036610238162373928094 (s.acc + s.v1 + s.v2) :=
  (hacc.add hv1).add hv2

/-- The first factor of E17 before its shift (R168). -/
theorem e17A_within (h : within (-4271024) 4117344 s.acc) :
    within (-10893475840) 11964011600 (shl s.rawH 14 - shl s.cal.H4 20 - s.cal.H5 * s.acc + 16384) :=
  (((((unsigned_within s.adcH).shl 14).sub ((signed12_within s.cal.h4).shl 20)).sub
    ((signed12_within s.cal.h5).mul h)).add (.const 16384))

theorem e17B1_within (h : within (-4271024) 4117344 s.acc) : within (-529708) 533878 (asr (s.acc * s.cal.H6) 10) :=
  within_asr (h.mul (signed8_within s.cal.h6)) 10

theorem e17B2_within (h : within (-4271024) 4117344 s.acc) :
    within (-499025) 545425 (asr (s.acc * s.cal.H3) 11 + 32768) :=
  (within_asr (h.mul (unsigned_within s.cal.h3)) 11).add (.const 32768)

/-- The factor of H2 in E17 (R168). -/
theorem e17B3_within (h : within (-4271024) 4117344 s.acc) :
    within (-280047366) 286462784
      (asr (asr (s.acc * s.cal.H6) 10 * (asr (s.acc * s.cal.H3) 11 + 32768)) 10 + 2097152) :=
  (within_asr ((e17B1_within h).mul (e17B2_within h)) 10).add (.const 2097152)

/-- The second factor of E17 before its shift (R168). -/
theorem e17B_within (h : within (-4271024) 4117344 s.acc) :
    within (-9386812497920) 9386526051520
      ((asr (asr (s.acc * s.cal.H6) 10 * (asr (s.acc * s.cal.H3) 11 + 32768)) 10 + 2097152) * s.cal.H2 + 8192) :=
  ((e17B3_within h).mul (signed16_within s.cal.h2)).add (.const 8192)

/-- The subtrahend of E18 before its last shift (R169). -/
theorem e18Subtrahend_within (h : within (-209181999983616) 209175616365408 s.acc) :
    within 0 81185592174139490025 (asr (asr s.acc 15 * asr s.acc 15) 7 * s.cal.H1) :=
  (within_asr (within_asr h 15).sq 7).mul (unsigned_within s.cal.h1)

/-! ### Each micro-step leads from its ranges to those of the next -/

theorem exec_e0_range (hs : exec .e0 s = .next s') : engineRange 1 s' := by
  cases hs
  exact fineTerm1_within (unsigned_within s.adcT) (unsigned_within s.cal.t1) (signed16_within s.cal.t2)

theorem exec_e1_range (h : engineRange 1 s) (hs : exec .e1 s = .next s') : engineRange 2 s' := by
  cases hs
  exact ⟨h, fineTerm2_within (unsigned_within s.adcT) (unsigned_within s.cal.t1) (signed16_within s.cal.t3)⟩

theorem exec_e2_range (h : engineRange 2 s) (hs : exec .e2 s = .next s') : engineRange 3 s' := by
  cases hs
  obtain ⟨h1, h2⟩ := h
  have hsum : fineRange (s.v1 + s.v2) := h1.add h2
  show fineRange (BitVec.ofInt 32 (s.v1 + s.v2)).toInt
  rwa [toInt_ofInt32 (hsum.mono (by decide) (by decide))]

theorem exec_e3_range (h : engineRange 3 s) (hs : exec .e3 s = .next s') : engineRange 4 s' := by
  cases hs
  have ht := e3Result_within h
  refine ⟨h, ?_⟩
  show within _ _ (BitVec.ofInt 32 (asr (s.fine * 5 + 128) 8)).toInt
  rwa [toInt_ofInt32 (ht.mono (by decide) (by decide))]

theorem exec_e4_range (h : engineRange 4 s) (hs : exec .e4 s = .next s') : engineRange 5 s' := by
  cases hs
  exact ⟨h, h.1.sub (.const 128000)⟩

theorem exec_e5_range (h : engineRange 5 s) (hs : exec .e5 s = .next s') : engineRange 6 s' := by
  cases hs
  obtain ⟨ht, h1⟩ := h
  exact ⟨ht, h1, h1.sq.mul (signed16_within s.cal.p6)⟩

theorem exec_e6_range (h : engineRange 6 s) (hs : exec .e6 s = .next s') : engineRange 7 s' := by
  cases hs
  obtain ⟨ht, h1, h2⟩ := h
  exact ⟨ht, h1, h2.add ((h1.mul (signed16_within s.cal.p5)).shl 17)⟩

theorem exec_e7_range (h : engineRange 7 s) (hs : exec .e7 s = .next s') : engineRange 8 s' := by
  cases hs
  obtain ⟨ht, h1, h2⟩ := h
  exact ⟨ht, h1, h2.add ((signed16_within s.cal.p4).shl 35)⟩

theorem exec_e8_range (h : engineRange 8 s) (hs : exec .e8 s = .next s') : engineRange 9 s' := by
  cases hs
  obtain ⟨ht, h1, h2⟩ := h
  exact ⟨ht, e8Result_within h1, h2⟩

theorem exec_e9_range (h : engineRange 9 s) (hs : exec .e9 s = .next s') : engineRange 10 s' := by
  cases hs
  obtain ⟨ht, h1, h2⟩ := h
  exact ⟨ht, within_asr (e9Product_within h1) 33, h2⟩

/-- E10 goes on to the division with a nonzero divisor, or to E16, which needs the temperature alone (R161). -/
theorem exec_e10_range (h : engineRange 10 s) (hs : exec .e10 s = .next s') : engineRange s'.engStep.toNat s' := by
  obtain ⟨ht, h1, h2⟩ := h
  rcases execE10_cases s with ⟨-, he⟩ | ⟨hne, he⟩ <;> cases he.symm.trans hs
  · exact ht
  · exact ⟨ht, h1, hne, h2, (within.const 1048576).sub (unsigned_within s.adcP)⟩

theorem exec_e11_range (h : engineRange 11 s) (hs : exec .e11 s = .next s') : engineRange 12 s' := by
  cases hs
  obtain ⟨ht, -, hne, h2, hacc⟩ := h
  refine ⟨ht, ?_⟩
  show within _ _ (tdiv ((shl s.acc 31 - s.v2) * 3125) s.v1)
  rw [tdiv_of_ne_zero _ hne]
  exact (e11Numerator_within hacc h2).tdiv s.v1

theorem exec_e12_range (h : engineRange 12 s) (hs : exec .e12 s = .next s') : engineRange 13 s' := by
  cases hs
  obtain ⟨ht, hacc⟩ := h
  exact ⟨ht, hacc, within_asr (e12Product_within hacc) 25⟩

theorem exec_e13_range (h : engineRange 13 s) (hs : exec .e13 s = .next s') : engineRange 14 s' := by
  cases hs
  obtain ⟨ht, hacc, h1⟩ := h
  exact ⟨ht, hacc, h1, within_asr ((signed16_within s.cal.p8).mul hacc) 19⟩

theorem exec_e14_range (h : engineRange 14 s) (hs : exec .e14 s = .next s') : engineRange 15 s' := by
  cases hs
  obtain ⟨ht, hacc, h1, h2⟩ := h
  exact ⟨ht, (within_asr (e14Sum_within hacc h1 h2) 8).add ((signed16_within s.cal.p7).shl 4)⟩

theorem exec_e15_range (h : engineRange 15 s) (hs : exec .e15 s = .next s') : engineRange 16 s' := by
  cases hs
  exact h.1

theorem exec_e16_range (h : engineRange 16 s) (hs : exec .e16 s = .next s') : engineRange 17 s' := by
  cases hs
  exact ⟨h, h.1.sub (.const 76800)⟩

theorem exec_e17_range (h : engineRange 17 s) (hs : exec .e17 s = .next s') : engineRange 18 s' := by
  cases hs
  obtain ⟨ht, hacc⟩ := h
  exact ⟨ht, (within_asr (e17A_within hacc) 15).mul (within_asr (e17B_within hacc) 14)⟩

theorem exec_e18_range (h : engineRange 18 s) (hs : exec .e18 s = .next s') : engineRange 19 s' := by
  cases hs
  obtain ⟨ht, hacc⟩ := h
  have hdiff : within (-5074308692883701742) 209175616365408
      (s.acc - asr (asr (asr s.acc 15 * asr s.acc 15) 7 * s.cal.H1) 4) :=
    hacc.sub (within_asr (e18Subtrahend_within hacc) 4)
  exact ⟨ht, lt_of_lt_of_le (by decide) hdiff.1, lt_of_le_of_lt hdiff.2 (by decide)⟩

theorem exec_e19_range (h : engineRange 19 s) (hs : exec .e19 s = .next s') : engineRange 20 s' := by
  cases (exec_e19 s).symm.trans hs
  obtain ⟨ht, -, hhi⟩ := h
  exact ⟨ht, le_max_left _ _, max_lt (by decide) hhi⟩

theorem exec_e20_range (h : engineRange 20 s) (hs : exec .e20 s = .next s') : engineRange 21 s' := by
  cases (exec_e20 s).symm.trans hs
  obtain ⟨ht, hlo, -⟩ := h
  exact ⟨ht, le_min hlo (by decide), min_le_right _ _⟩

theorem exec_e21_range (h : engineRange 21 s) (hs : exec .e21 s = .next s') : engineRange 22 s' := by
  cases hs
  obtain ⟨ht, hacc⟩ := h
  obtain ⟨hlo, hhi⟩ : within 0 102400 (asr s.acc 12) := within_asr hacc 12
  refine ⟨ht, ?_⟩
  show (BitVec.ofInt 32 (asr s.acc 12)).toNat ≤ 102400
  have hnat := toNat_ofInt_eq_emod 32 (asr s.acc 12)
  rw [Int.emod_eq_of_lt hlo (lt_of_le_of_lt hhi (by decide))] at hnat
  omega

end Sys2Proof.Machine
end

section
/-! The ranges of R147 along a step: the engine's micro-steps keep them, and every other edge leaves the engine's
registers alone, stops the engine or starts it at E0. -/

namespace Sys2Proof.Machine

variable {s s' : State}

/-! ### The engine's micro-steps -/

/-- Every micro-step but the test E10 and the commit E22 advances `eng_step` (R32). -/
theorem exec_engStep {i : Instr} (hi : i.isCommand = false) (h10 : i ≠ .e10) (h22 : i ≠ .e22)
    (hs : exec i s = .next s') : s'.engStep = s.engStep + 1 := by
  cases i with
  | loadCal | measure | rotateBy | rotateTo | nudgeCw | nudgeCcw => cases hi
  | e10 => exact absurd rfl h10
  | e22 => exact absurd rfl h22
  | _ => cases hs; rfl

/-- A running engine's number is the encoding of the micro-step it names (R103). -/
theorem encode_of_decode_microStep {k : MicroStepCode} {i : Instr} (hd : decode (.microStep k) = .ok i) :
    encode i = .microStep k := (encodeInvertsDecode _ _ hd).2

/-- The micro-step that `eng_step` names leads to the ranges of the one it comes to. -/
theorem exec_engineInRange {i : Instr} (hd : decode (.microStep s.engStep) = .ok i)
    (h : engineRange s.engStep.toNat s) (hs : exec i s = .next s') : EngineInRange s' := by
  have he : encode i = .microStep s.engStep := encode_of_decode_microStep hd
  have hadv {k : MicroStepCode} (hi : i.isCommand = false) (h10 : i ≠ .e10) (h22 : i ≠ .e22) (hk : k = s.engStep)
      (hrange : engineRange k.toNat s → engineRange (k + 1).toNat s') : EngineInRange s' := by
    subst hk
    intro _
    rw [exec_engStep hi h10 h22 hs]
    exact hrange h
  cases i with
  | loadCal | measure | rotateBy | rotateTo | nudgeCw | nudgeCcw => cases he
  | e0 => exact hadv rfl nofun nofun (Code.microStep.inj he) (fun _ => exec_e0_range hs)
  | e1 => exact hadv rfl nofun nofun (Code.microStep.inj he) (exec_e1_range · hs)
  | e2 => exact hadv rfl nofun nofun (Code.microStep.inj he) (exec_e2_range · hs)
  | e3 => exact hadv rfl nofun nofun (Code.microStep.inj he) (exec_e3_range · hs)
  | e4 => exact hadv rfl nofun nofun (Code.microStep.inj he) (exec_e4_range · hs)
  | e5 => exact hadv rfl nofun nofun (Code.microStep.inj he) (exec_e5_range · hs)
  | e6 => exact hadv rfl nofun nofun (Code.microStep.inj he) (exec_e6_range · hs)
  | e7 => exact hadv rfl nofun nofun (Code.microStep.inj he) (exec_e7_range · hs)
  | e8 => exact hadv rfl nofun nofun (Code.microStep.inj he) (exec_e8_range · hs)
  | e9 => exact hadv rfl nofun nofun (Code.microStep.inj he) (exec_e9_range · hs)
  | e11 => exact hadv rfl nofun nofun (Code.microStep.inj he) (exec_e11_range · hs)
  | e12 => exact hadv rfl nofun nofun (Code.microStep.inj he) (exec_e12_range · hs)
  | e13 => exact hadv rfl nofun nofun (Code.microStep.inj he) (exec_e13_range · hs)
  | e14 => exact hadv rfl nofun nofun (Code.microStep.inj he) (exec_e14_range · hs)
  | e15 => exact hadv rfl nofun nofun (Code.microStep.inj he) (exec_e15_range · hs)
  | e16 => exact hadv rfl nofun nofun (Code.microStep.inj he) (exec_e16_range · hs)
  | e17 => exact hadv rfl nofun nofun (Code.microStep.inj he) (exec_e17_range · hs)
  | e18 => exact hadv rfl nofun nofun (Code.microStep.inj he) (exec_e18_range · hs)
  | e19 => exact hadv rfl nofun nofun (Code.microStep.inj he) (exec_e19_range · hs)
  | e20 => exact hadv rfl nofun nofun (Code.microStep.inj he) (exec_e20_range · hs)
  | e21 => exact hadv rfl nofun nofun (Code.microStep.inj he) (exec_e21_range · hs)
  | e10 =>
    have hk : 10 = s.engStep := Code.microStep.inj he
    rw [← hk] at h
    exact fun _ => exec_e10_range h hs
  | e22 => cases hs; exact nofun

/-! ### The commands -/

/-- A command taken by the block starts with the engine's registers as they are. -/
theorem takeCommand_engineInRange {c : Option CompletionCode} {w : State} (hs : takeCommand s c w = .next s')
    (h : EngineInRange s) (hw : EngineInRange w) : EngineInRange s' := by
  rcases takeCommand_cases s c w with ⟨-, he⟩ | ⟨_, -, -, he⟩ | ⟨-, -, he⟩ <;> cases he.symm.trans hs
  · exact h
  · exact h
  · exact hw

theorem exec_command_engineInRange {i : Instr} (hi : i.isCommand = true) (h : EngineInRange s)
    (hs : exec i s = .next s') : EngineInRange s' := by
  cases i with
  | loadCal | measure => exact takeCommand_engineInRange hs h h
  | rotateBy | rotateTo | nudgeCw | nudgeCcw => exact takeCommand_engineInRange (c := none) hs h h
  | _ => cases hi

/-! ### The sequencer -/

theorem raiseBusError_engPhase (s : State) : s.raiseBusError.engPhase = s.engPhase := by
  unfold State.raiseBusError
  cases s.curOp <;> rfl

theorem calAnswered_engPhase (s : State) (r : BitVec 24) : (calAnswered s r).engPhase = s.engPhase := by
  rcases calAnswered_cases s r with ⟨-, he⟩ | ⟨-, he⟩ <;> simp [he]

theorem statusAnswered_engPhase (s : State) (r : BitVec 24) : (statusAnswered s r).engPhase = s.engPhase := by
  rcases statusAnswered_cases s r with ⟨-, he⟩ | ⟨-, he⟩ <;> simp [he]

/-- The last raw read starts the engine at E0 (R203); the others leave it as it is. -/
theorem rawAnswered_engine (s : State) (r : BitVec 24) :
    (rawAnswered s r).engPhase = s.engPhase ∨ (rawAnswered s r).engStep = 0 := by
  unfold rawAnswered
  cases s.rdIdx with
  | pressure | temperature => exact .inl rfl
  | humidity => exact .inr rfl

theorem measureAnswered_engine (s : State) (r : BitVec 24) :
    (measureAnswered s r).engPhase = s.engPhase ∨ (measureAnswered s r).engStep = 0 := by
  unfold measureAnswered
  cases s.mstate with
  | idle | triggered => exact .inl rfl
  | polling => exact .inl (statusAnswered_engPhase s r)
  | ready => exact rawAnswered_engine s r

theorem receive_engine (s : State) (failed : Bool) (r : BitVec 24) :
    (receive s failed r).engPhase = s.engPhase ∨ (receive s failed r).engStep = 0 := by
  cases failed with
  | true => exact .inl (raiseBusError_engPhase s.endTransaction)
  | false =>
    cases hop : s.curOp with
    | loadCal => rw [receive_loadCal hop]; exact .inl (calAnswered_engPhase s.endTransaction r)
    | measure => rw [receive_measure hop]; exact measureAnswered_engine s.endTransaction r
    | rotateBy | rotateTo => exact .inl (by simp [receive, hop])

theorem waitEdge_engPhase (s : State) (tick : Bool) : (s.waitEdge tick).engPhase = s.engPhase := by
  rcases waitEdge_cases s tick with ⟨-, he⟩ | ⟨-, -, he⟩ | ⟨-, -, he⟩ <;> rw [he]
  unfold State.endWait
  cases s.curOp <;> rfl

theorem internalAdvance_engPhase (s : State) : (internalAdvance s).engPhase = s.engPhase := by
  have hmotor : (motorAdvance s).engPhase = s.engPhase := by
    rcases motorAdvance_cases s with ⟨-, he⟩ | ⟨-, -, he⟩ | ⟨-, -, he⟩ <;> rw [he] <;> rfl
  unfold internalAdvance
  cases s.curOp with
  | loadCal | measure => rfl
  | rotateBy | rotateTo => exact hmotor

/-- The sequencer keeps the engine's phase, or starts the engine at E0 (R203). -/
theorem sequenceEdge_engine (s : State) (inp : PortIn) :
    (sequenceEdge s inp).engPhase = s.engPhase ∨ (sequenceEdge s inp).engStep = 0 := by
  rcases sequenceEdge_cases s inp with ⟨-, he⟩ | ⟨-, -, -, he⟩ | ⟨-, -, -, he⟩ | ⟨-, -, he⟩ <;> rw [he]
  · exact .inl (waitEdge_engPhase s _)
  · exact receive_engine s _ _
  · exact .inl rfl
  · rcases sequenceAdvance_cases s with ⟨u, -, ha⟩ | ⟨-, ha⟩ <;> rw [ha]
    · exact .inl rfl
    · exact .inl (internalAdvance_engPhase s)

/-- A sequencer's edge with the engine off leaves it off or before E0, where nothing is live. -/
theorem sequenceEdge_engineInRange (hoff : s.engPhase = .off) (inp : PortIn) : EngineInRange (sequenceEdge s inp) := by
  intro hrun
  rcases sequenceEdge_engine s inp with hp | hk
  · exact nomatch hoff.symm.trans (hp.symm.trans hrun)
  · rw [hk]
    trivial

/-! ### The step -/

/-- Settles O24: every edge but a micro-step leaves the engine's registers as they are, stops it or starts it at E0. -/
theorem engineValuesStayInRange : Obligations.EngineValuesStayInRange := by
  intro s s' h hs
  have hclock : EngineInRange s.clockEdge := h
  rcases step_cases s with ⟨-, he⟩ | ⟨-, -, -, he⟩ | ⟨-, -, -, _, -, he⟩ | ⟨-, -, -, i, hd, he⟩ |
    ⟨-, -, hrun, i, hd, he⟩ | ⟨-, -, -, _, -, he⟩ | ⟨-, -, -, he⟩ | ⟨-, -, hoff, he⟩ <;> have hs := he.symm.trans hs
  · cases hs; exact nofun
  · cases hs; exact hclock
  · cases hs; exact hclock
  · exact exec_command_engineInRange (decodeCommand_isCommand hd) hclock hs
  · exact exec_engineInRange (s := s.clockEdge) hd (hclock hrun) hs
  · cases hs
  · cases hs; exact nofun
  · cases hs; exact sequenceEdge_engineInRange (s := s.clockEdge) hoff s.input

end Sys2Proof.Machine
end

section
/-! Every value a micro-step forms fits `W_ACC` (R9, R147): in the ranges of R147 the interval of each operation of each
rule ends inside 132 bits. -/

namespace Sys2Proof.Machine

/-- The value fits the two's complement ranges of the largest intermediate and of the datapath (R147). -/
abbrev FitsAccumulator (v : Int) : Prop := fitsBits 132 v ∧ fitsBits Config.wAcc v

end Sys2Proof.Machine

namespace Sys2Proof

/-- A value fits when the ends of an interval around it do. -/
theorem within.fits {a b x : Int} (h : within a b x) (hab : -(2 ^ 131) ≤ a ∧ b < 2 ^ 131 := by decide) :
    Machine.FitsAccumulator x := by
  have hlo : -(2 ^ 131) ≤ x := hab.1.trans h.1
  have hhi : x < 2 ^ 131 := h.2.trans_lt hab.2
  exact ⟨⟨hlo, hhi⟩, le_trans (by decide) hlo, hhi.trans (by decide)⟩

end Sys2Proof

namespace Sys2Proof.Machine

variable {s : State}

/-! ### The temperature phase -/

theorem e0_fits (hk : s.engStep.toNat = 0) : ∀ v ∈ intermediates s, FitsAccumulator v := by
  have hraw : within 0 131071 (asr s.rawT 3) := within_asr (unsigned_within s.adcT) 3
  have hcal : within 0 131070 (shl s.cal.T1 1) := within.shl (unsigned_within s.cal.t1) 1
  have hprod := (hraw.sub hcal).mul (signed16_within s.cal.t2)
  simp only [intermediates, hk, List.forall_mem_cons]
  exact ⟨hraw.fits, hcal.fits, (hraw.sub hcal).fits, hprod.fits, (within_asr hprod 11).fits, nofun⟩

theorem e1_fits (hk : s.engStep.toNat = 1) : ∀ v ∈ intermediates s, FitsAccumulator v := by
  have hraw : within 0 65535 (asr s.rawT 4) := within_asr (unsigned_within s.adcT) 4
  have hd : within (-65535) 65535 (asr s.rawT 4 - s.cal.T1) := hraw.sub (unsigned_within s.cal.t1)
  have hq := within_asr hd.sq 12
  have hprod := hq.mul (signed16_within s.cal.t3)
  simp only [intermediates, hk, List.forall_mem_cons]
  exact ⟨hraw.fits, hd.fits, hd.sq.fits, hq.fits, hprod.fits, (within_asr hprod 14).fits, nofun⟩

theorem e2_fits (hk : s.engStep.toNat = 2) (h : engineRange 2 s) : ∀ v ∈ intermediates s, FitsAccumulator v := by
  obtain ⟨h1, h2⟩ := h
  simp only [intermediates, hk, List.forall_mem_cons]
  exact ⟨(h1.add h2).fits, nofun⟩

theorem e3_fits (hk : s.engStep.toNat = 3) (h : engineRange 3 s) : ∀ v ∈ intermediates s, FitsAccumulator v := by
  have hfive : within _ _ (s.fine * 5) := within.mul h (.const 5)
  simp only [intermediates, hk, List.forall_mem_cons]
  exact ⟨hfive.fits, (hfive.add (.const 128)).fits, (e3Result_within h).fits, nofun⟩

/-! ### The pressure phase -/

theorem e4_fits (hk : s.engStep.toNat = 4) (h : engineRange 4 s) : ∀ v ∈ intermediates s, FitsAccumulator v := by
  obtain ⟨hfine, -⟩ := h
  simp only [intermediates, hk, List.forall_mem_cons]
  exact ⟨(hfine.sub (.const 128000)).fits, nofun⟩

theorem e5_fits (hk : s.engStep.toNat = 5) (h : engineRange 5 s) : ∀ v ∈ intermediates s, FitsAccumulator v := by
  obtain ⟨-, h1⟩ := h
  simp only [intermediates, hk, List.forall_mem_cons]
  exact ⟨h1.sq.fits, (h1.sq.mul (signed16_within s.cal.p6)).fits, nofun⟩

theorem e6_fits (hk : s.engStep.toNat = 6) (h : engineRange 6 s) : ∀ v ∈ intermediates s, FitsAccumulator v := by
  obtain ⟨-, h1, h2⟩ := h
  have hprod := h1.mul (signed16_within s.cal.p5)
  simp only [intermediates, hk, List.forall_mem_cons]
  exact ⟨hprod.fits, (hprod.shl 17).fits, (h2.add (hprod.shl 17)).fits, nofun⟩

theorem e7_fits (hk : s.engStep.toNat = 7) (h : engineRange 7 s) : ∀ v ∈ intermediates s, FitsAccumulator v := by
  obtain ⟨-, -, h2⟩ := h
  have hcal := (signed16_within s.cal.p4).shl 35
  simp only [intermediates, hk, List.forall_mem_cons]
  exact ⟨hcal.fits, (h2.add hcal).fits, nofun⟩

theorem e8_fits (hk : s.engStep.toNat = 8) (h : engineRange 8 s) : ∀ v ∈ intermediates s, FitsAccumulator v := by
  obtain ⟨-, h1, -⟩ := h
  have hcube := e8Product_within h1
  have hlin := h1.mul (signed16_within s.cal.p2)
  simp only [intermediates, hk, List.forall_mem_cons]
  exact ⟨h1.sq.fits, hcube.fits, (within_asr hcube 8).fits, hlin.fits, (hlin.shl 12).fits, (e8Result_within h1).fits,
    nofun⟩

theorem e9_fits (hk : s.engStep.toNat = 9) (h : engineRange 9 s) : ∀ v ∈ intermediates s, FitsAccumulator v := by
  obtain ⟨-, h1, -⟩ := h
  have hone := (within.const 1).shl 47
  have hprod := e9Product_within h1
  simp only [intermediates, hk, List.forall_mem_cons]
  exact ⟨hone.fits, (hone.add h1).fits, hprod.fits, (within_asr hprod 33).fits, nofun⟩

theorem e10_fits (hk : s.engStep.toNat = 10) : ∀ v ∈ intermediates s, FitsAccumulator v := by
  simp only [intermediates, hk, List.forall_mem_cons]
  exact ⟨((within.const 1048576).sub (unsigned_within s.adcP)).fits, nofun⟩

theorem e11_fits (hk : s.engStep.toNat = 11) (h : engineRange 11 s) : ∀ v ∈ intermediates s, FitsAccumulator v := by
  obtain ⟨-, -, hne, h2, hacc⟩ := h
  have hnum := e11Numerator_within hacc h2
  simp only [intermediates, hk, List.forall_mem_cons, tdiv_of_ne_zero _ hne]
  exact ⟨(hacc.shl 31).fits, ((hacc.shl 31).sub h2).fits, hnum.fits, (hnum.tdiv s.v1).fits, nofun⟩

theorem e12_fits (hk : s.engStep.toNat = 12) (h : engineRange 12 s) : ∀ v ∈ intermediates s, FitsAccumulator v := by
  obtain ⟨-, hacc⟩ := h
  have he := within_asr hacc 13
  have hprod := e12Product_within hacc
  simp only [intermediates, hk, List.forall_mem_cons]
  exact ⟨he.fits, he.sq.fits, ((signed16_within s.cal.p9).mul he).fits, hprod.fits, (within_asr hprod 25).fits, nofun⟩

theorem e13_fits (hk : s.engStep.toNat = 13) (h : engineRange 13 s) : ∀ v ∈ intermediates s, FitsAccumulator v := by
  obtain ⟨-, hacc, -⟩ := h
  have hprod := (signed16_within s.cal.p8).mul hacc
  simp only [intermediates, hk, List.forall_mem_cons]
  exact ⟨hprod.fits, (within_asr hprod 19).fits, nofun⟩

theorem e14_fits (hk : s.engStep.toNat = 14) (h : engineRange 14 s) : ∀ v ∈ intermediates s, FitsAccumulator v := by
  obtain ⟨-, hacc, h1, h2⟩ := h
  have hsum := e14Sum_within hacc h1 h2
  have hcal := (signed16_within s.cal.p7).shl 4
  simp only [intermediates, hk, List.forall_mem_cons]
  exact ⟨(hacc.add h1).fits, hsum.fits, (within_asr hsum 8).fits, hcal.fits, ((within_asr hsum 8).add hcal).fits, nofun⟩

theorem e15_fits (hk : s.engStep.toNat = 15) (h : engineRange 15 s) : ∀ v ∈ intermediates s, FitsAccumulator v := by
  obtain ⟨-, hacc⟩ := h
  have hmod : within 0 (2 ^ 32 - 1) (s.acc % 2 ^ 32) :=
    ⟨Int.emod_nonneg _ (by decide), Int.le_sub_one_of_lt (Int.emod_lt_of_pos _ (by decide))⟩
  simp only [intermediates, hk, List.forall_mem_cons]
  exact ⟨hacc.fits, hmod.fits, nofun⟩

/-! ### The humidity phase -/

theorem e16_fits (hk : s.engStep.toNat = 16) (h : engineRange 16 s) : ∀ v ∈ intermediates s, FitsAccumulator v := by
  obtain ⟨hfine, -⟩ := h
  simp only [intermediates, hk, List.forall_mem_cons]
  exact ⟨(hfine.sub (.const 76800)).fits, nofun⟩

theorem e17_fits (hk : s.engStep.toNat = 17) (h : engineRange 17 s) : ∀ v ∈ intermediates s, FitsAccumulator v := by
  obtain ⟨-, hacc⟩ := h
  have hraw : within 0 1073725440 (shl s.rawH 14) := within.shl (unsigned_within s.adcH) 14
  have hcal : within (-2147483648) 2146435072 (shl s.cal.H4 20) := within.shl (signed12_within s.cal.h4) 20
  have h5 := (signed12_within s.cal.h5).mul hacc
  have ha := e17A_within hacc
  have h6 := hacc.mul (signed8_within s.cal.h6)
  have hb1 := e17B1_within hacc
  have h3 := hacc.mul (unsigned_within s.cal.h3)
  have hb2 := e17B2_within hacc
  have hb12 := hb1.mul hb2
  have hb3 := e17B3_within hacc
  have h2 := hb3.mul (signed16_within s.cal.h2)
  have hb := e17B_within hacc
  have hab := (within_asr ha 15).mul (within_asr hb 14)
  simp only [intermediates, hk, List.forall_mem_cons]
  exact ⟨hraw.fits, hcal.fits, (hraw.sub hcal).fits, h5.fits, ((hraw.sub hcal).sub h5).fits, ha.fits,
    (within_asr ha 15).fits, h6.fits, hb1.fits, h3.fits, (within_asr h3 11).fits, hb2.fits, hb12.fits,
    (within_asr hb12 10).fits, hb3.fits, h2.fits, hb.fits, (within_asr hb 14).fits, hab.fits, nofun⟩

theorem e18_fits (hk : s.engStep.toNat = 18) (h : engineRange 18 s) : ∀ v ∈ intermediates s, FitsAccumulator v := by
  obtain ⟨-, hacc⟩ := h
  have he := within_asr hacc 15
  have hf := e18Subtrahend_within hacc
  simp only [intermediates, hk, List.forall_mem_cons]
  exact ⟨he.fits, he.sq.fits, (within_asr he.sq 7).fits, hf.fits, (within_asr hf 4).fits,
    (hacc.sub (within_asr hf 4)).fits, nofun⟩

theorem e19_fits (hk : s.engStep.toNat = 19) (h : engineRange 19 s) : ∀ v ∈ intermediates s, FitsAccumulator v := by
  obtain ⟨-, hlo, hhi⟩ := h
  have hacc : within (-(2 ^ 63)) (2 ^ 48) s.acc := ⟨hlo.le, hhi.le⟩
  have hmax : within 0 (2 ^ 48) (max 0 s.acc) := ⟨le_max_left _ _, max_le (by decide) hhi.le⟩
  simp only [intermediates, hk, List.forall_mem_cons]
  exact ⟨hacc.fits, hmax.fits, nofun⟩

theorem e20_fits (hk : s.engStep.toNat = 20) (h : engineRange 20 s) : ∀ v ∈ intermediates s, FitsAccumulator v := by
  obtain ⟨-, hlo, hhi⟩ := h
  have hacc : within 0 (2 ^ 48) s.acc := ⟨hlo, hhi.le⟩
  have hmin : within 0 419430400 (min s.acc 419430400) := ⟨le_min hlo (by decide), min_le_right _ _⟩
  simp only [intermediates, hk, List.forall_mem_cons]
  exact ⟨hacc.fits, hmin.fits, nofun⟩

theorem e21_fits (hk : s.engStep.toNat = 21) (h : engineRange 21 s) : ∀ v ∈ intermediates s, FitsAccumulator v := by
  obtain ⟨-, hacc⟩ := h
  simp only [intermediates, hk, List.forall_mem_cons]
  exact ⟨hacc.fits, (within_asr hacc 12).fits, nofun⟩

/-- From E22 on no operation forms a value. -/
theorem intermediates_eq_nil {n : Nat} (hk : s.engStep.toNat = n + 22) : intermediates s = [] := by
  simp [intermediates, hk]

/-- Settles O25: micro-step by micro-step, from the ranges of its operands. -/
theorem engineFitsTheAccumulatorWidth : Obligations.EngineFitsTheAccumulatorWidth := by
  intro s h
  match hk : s.engStep.toNat, h with
  | 0, _ => exact e0_fits hk
  | 1, _ => exact e1_fits hk
  | 2, h => exact e2_fits hk h
  | 3, h => exact e3_fits hk h
  | 4, h => exact e4_fits hk h
  | 5, h => exact e5_fits hk h
  | 6, h => exact e6_fits hk h
  | 7, h => exact e7_fits hk h
  | 8, h => exact e8_fits hk h
  | 9, h => exact e9_fits hk h
  | 10, _ => exact e10_fits hk
  | 11, h => exact e11_fits hk h
  | 12, h => exact e12_fits hk h
  | 13, h => exact e13_fits hk h
  | 14, h => exact e14_fits hk h
  | 15, h => exact e15_fits hk h
  | 16, h => exact e16_fits hk h
  | 17, h => exact e17_fits hk h
  | 18, h => exact e18_fits hk h
  | 19, h => exact e19_fits hk h
  | 20, h => exact e20_fits hk h
  | 21, h => exact e21_fits hk h
  | n + 22, _ => simp [intermediates_eq_nil hk]

end Sys2Proof.Machine
end

section
/-! The engine as a whole (R143, R154, R174, R175): a run of micro-steps takes one edge for each (log 1), and phase by
phase it leaves the values of the closed forms. -/

namespace Sys2Proof.Machine

variable {s t u : State} {n m : Nat} {l : List PortIn}

/-! ### Runs of micro-steps -/

/-- The engine's run of `n` micro-steps from one state to another, the clock and the ports left out: each is the one
that `eng_step` names (R143). -/
inductive EngineRun : Nat → State → State → Prop
  | stop (s : State) : EngineRun 0 s s
  | micro {n : Nat} {s t u : State} (i : Instr) : s.busy = true → s.engPhase = .running →
      decode (.microStep s.engStep) = .ok i → exec i s = .next t → EngineRun n t u → EngineRun (n + 1) s u

theorem EngineRun.trans (h : EngineRun m s t) (h' : EngineRun n t u) : EngineRun (m + n) s u := by
  induction h with
  | stop => rwa [Nat.zero_add]
  | micro i hb hp hd hx _ ih =>
    rw [Nat.succ_add]
    exact .micro i hb hp hd hx (ih h')

/-- `s` between two edges of a run: `done` is low, and `l` are the inputs still to come. -/
def State.seeingNext (s : State) (l : List PortIn) : State := { s with done := false, inputs := l }

/-- No micro-step reads or writes the ports. -/
theorem exec_seeingNext {i : Instr} (hi : i.isCommand = false) (hx : exec i s = .next t) (l : List PortIn) :
    exec i (s.seeingNext l) = .next (t.seeingNext l) := by
  cases i with
  | loadCal | measure | rotateBy | rotateTo | nudgeCw | nudgeCcw => cases hi
  | e10 =>
    rcases execE10_cases s with ⟨hz, he⟩ | ⟨hne, he⟩ <;> cases he.symm.trans hx
    · exact exec_e10_of_zero (s := s.seeingNext l) hz
    · exact exec_e10_of_ne_zero (s := s.seeingNext l) hne
  | _ => cases hx; rfl

theorem isCommand_of_decode_microStep {k : MicroStepCode} {i : Instr} (hd : decode (.microStep k) = .ok i) :
    i.isCommand = false := by
  have h := decodeMicroStep_not_command k
  have hd' : decodeMicroStep k = .ok i := hd
  simpa [hd', Except.toOption] using h

/-- Without reset a run of micro-steps takes one edge for each (log 1). -/
theorem EngineRun.runsTo (h : EngineRun n s t) (l : List PortIn) (hr : ∀ k < n, (l.getD k .quiet).rst = false) :
    RunsTo n (s.seeingNext l) (t.seeingNext (l.drop n)) := by
  induction h generalizing l with
  | stop => exact runsTo_zero _
  | @micro n s t u i hb hp hd hx _ ih =>
    have hrst : (s.seeingNext l).input.rst = false := by
      have h0 := hr 0 (Nat.succ_pos n)
      rwa [← List.headD_eq_getD] at h0
    have hstep : step (s.seeingNext l) = .next (t.seeingNext l.tail) :=
      calc step (s.seeingNext l)
          _ = exec i (s.seeingNext l.tail) := (stepRunsTheDecodedInstruction _ i hrst).2 hb hp hd
          _ = .next (t.seeingNext l.tail) := exec_seeingNext (isCommand_of_decode_microStep hd) hx l.tail
    rw [← List.drop_tail]
    refine runsTo_succ_iff.mpr ⟨_, hstep, ih l.tail fun k hk => ?_⟩
    have hk' := hr (k + 1) (Nat.succ_lt_succ hk)
    simpa [List.getD_eq_getElem?_getD] using hk'

/-- `done` before the first edge does not matter: the edge ends the pulse. -/
theorem runsTo_of_seeingNext (h : RunsTo (n + 1) (s.seeingNext s.inputs) t) : RunsTo (n + 1) s t := by
  obtain ⟨u, hu, hrest⟩ := runsTo_succ_iff.mp h
  exact runsTo_succ_iff.mpr ⟨u, hu, hrest⟩

/-! ### The micro-steps on the engine's registers -/

/-- The registers the engine works with (R24, R28). -/
structure Work where
  tFine : BitVec 32
  v1 : Int
  v2 : Int
  acc : Int
  tW : BitVec 32
  pW : BitVec 32
  hW : BitVec 32

/-- The engine's registers of `s`. -/
def State.work (s : State) : Work := ⟨s.tFine, s.v1, s.v2, s.acc, s.tW, s.pW, s.hW⟩

/-- `s` with a running engine that has come to micro-step `k` with the registers `w`. -/
def State.working (s : State) (k : MicroStepCode) (w : Work) : State :=
  { s with
    engPhase := .running, engStep := k
    tFine := w.tFine, v1 := w.v1, v2 := w.v2, acc := w.acc, tW := w.tW, pW := w.pW, hW := w.hW }

theorem working_work (hp : s.engPhase = .running) : s.working s.engStep s.work = s := by
  rw [State.working, ← hp]
  rfl

section
variable (s : State) (w : Work)

theorem exec_e0_working : exec .e0 (s.working 0 w) =
    .next (s.working 1 { w with v1 := asr ((asr s.rawT 3 - shl s.cal.T1 1) * s.cal.T2) 11 }) := rfl

theorem exec_e1_working : exec .e1 (s.working 1 w) =
    .next (s.working 2 { w with
      v2 := asr (asr ((asr s.rawT 4 - s.cal.T1) * (asr s.rawT 4 - s.cal.T1)) 12 * s.cal.T3) 14 }) := rfl

theorem exec_e2_working : exec .e2 (s.working 2 w) =
    .next (s.working 3 { w with tFine := BitVec.ofInt 32 (w.v1 + w.v2) }) := rfl

theorem exec_e3_working : exec .e3 (s.working 3 w) =
    .next (s.working 4 { w with tW := BitVec.ofInt 32 (asr (w.tFine.toInt * 5 + 128) 8) }) := rfl

theorem exec_e4_working : exec .e4 (s.working 4 w) =
    .next (s.working 5 { w with v1 := w.tFine.toInt - 128000 }) := rfl

theorem exec_e5_working : exec .e5 (s.working 5 w) =
    .next (s.working 6 { w with v2 := w.v1 * w.v1 * s.cal.P6 }) := rfl

theorem exec_e6_working : exec .e6 (s.working 6 w) =
    .next (s.working 7 { w with v2 := w.v2 + shl (w.v1 * s.cal.P5) 17 }) := rfl

theorem exec_e7_working : exec .e7 (s.working 7 w) =
    .next (s.working 8 { w with v2 := w.v2 + shl s.cal.P4 35 }) := rfl

theorem exec_e8_working : exec .e8 (s.working 8 w) =
    .next (s.working 9 { w with v1 := asr (w.v1 * w.v1 * s.cal.P3) 8 + shl (w.v1 * s.cal.P2) 12 }) := rfl

theorem exec_e9_working : exec .e9 (s.working 9 w) =
    .next (s.working 10 { w with v1 := asr ((shl 1 47 + w.v1) * s.cal.P1) 33 }) := rfl

theorem exec_e10_working_of_zero (h : w.v1 = 0) : exec .e10 (s.working 10 w) =
    .next (s.working 16 { w with pW := 0 }) := exec_e10_of_zero (s := s.working 10 w) h

theorem exec_e10_working_of_ne_zero (h : w.v1 ≠ 0) : exec .e10 (s.working 10 w) =
    .next (s.working 11 { w with acc := 1048576 - s.rawP }) := exec_e10_of_ne_zero (s := s.working 10 w) h

theorem exec_e11_working (h : w.v1 ≠ 0) : exec .e11 (s.working 11 w) =
    .next (s.working 12 { w with acc := Int.tdiv ((shl w.acc 31 - w.v2) * 3125) w.v1 }) := by
  rw [← tdiv_of_ne_zero _ h]
  rfl

theorem exec_e12_working : exec .e12 (s.working 12 w) =
    .next (s.working 13 { w with v1 := asr (s.cal.P9 * asr w.acc 13 * asr w.acc 13) 25 }) := rfl

theorem exec_e13_working : exec .e13 (s.working 13 w) =
    .next (s.working 14 { w with v2 := asr (s.cal.P8 * w.acc) 19 }) := rfl

theorem exec_e14_working : exec .e14 (s.working 14 w) =
    .next (s.working 15 { w with acc := asr (w.acc + w.v1 + w.v2) 8 + shl s.cal.P7 4 }) := rfl

theorem exec_e15_working : exec .e15 (s.working 15 w) =
    .next (s.working 16 { w with pW := BitVec.ofInt 32 w.acc }) := rfl

theorem exec_e16_working : exec .e16 (s.working 16 w) =
    .next (s.working 17 { w with acc := w.tFine.toInt - 76800 }) := rfl

theorem exec_e17_working : exec .e17 (s.working 17 w) =
    .next (s.working 18 { w with
      acc := asr (shl s.rawH 14 - shl s.cal.H4 20 - s.cal.H5 * w.acc + 16384) 15 *
        asr ((asr (asr (w.acc * s.cal.H6) 10 * (asr (w.acc * s.cal.H3) 11 + 32768)) 10 + 2097152) * s.cal.H2
          + 8192) 14 }) := rfl

theorem exec_e18_working : exec .e18 (s.working 18 w) =
    .next (s.working 19 { w with acc := w.acc - asr (asr (asr w.acc 15 * asr w.acc 15) 7 * s.cal.H1) 4 }) := rfl

theorem exec_e19_working : exec .e19 (s.working 19 w) =
    .next (s.working 20 { w with acc := max 0 w.acc }) := exec_e19 (s.working 19 w)

theorem exec_e20_working : exec .e20 (s.working 20 w) =
    .next (s.working 21 { w with acc := min w.acc 419430400 }) := exec_e20 (s.working 20 w)

theorem exec_e21_working : exec .e21 (s.working 21 w) =
    .next (s.working 22 { w with hW := BitVec.ofInt 32 (asr w.acc 12) }) := rfl

end

/-! ### The phases -/

theorem compP_of_ne_zero {tf P1 P2 P3 : Int} (h : compDenominator tf P1 P2 P3 ≠ 0) (adcP P4 P5 P6 P7 P8 P9 : Int) :
    compP adcP tf P1 P2 P3 P4 P5 P6 P7 P8 P9 = compPExact adcP tf P1 P2 P3 P4 P5 P6 P7 P8 P9 % 2 ^ 32 := if_neg h

/-- `h_w` holds CompH: the value of E21 after the clamps of E19 and E20 (R170 to R172). -/
theorem toNat_ofInt_compH (adcH tf H1 H2 H3 H4 H5 H6 : Int) :
    ((BitVec.ofInt 32 (asr (min (max 0 (compHUnclamped adcH tf H1 H2 H3 H4 H5 H6)) 419430400) 12)).toNat : Int) =
      compH adcH tf H1 H2 H3 H4 H5 H6 := by
  obtain ⟨hlo, hhi⟩ := compH_within adcH tf H1 H2 H3 H4 H5 H6
  rw [toNat_ofInt_eq_emod, min_max_eq_clamp _ (by decide)]
  exact Int.emod_eq_of_lt hlo (hhi.trans_lt (by decide))

section
variable (hb : s.busy = true) (w : Work)
include hb

/-- E0 to E3 compute `t_fine` and T of CompT (R154). -/
theorem engineRun_temperature : ∃ w', EngineRun 4 (s.working 0 w) (s.working 4 w') ∧
    w'.tFine.toInt = s.cycleFine ∧ w'.tW.toInt = s.cycleT := by
  have hfine : (BitVec.ofInt 32 s.cycleFine).toInt = s.cycleFine :=
    toInt_ofInt32 (within.mono (fineTemperatureRange s) (by decide) (by decide))
  have hT : within (-2147483648) 2147483647 s.cycleT :=
    within.mono (within_asr ((within.mul (fineTemperatureRange s) (.const 5)).add (.const 128)) 8)
      (by decide) (by decide)
  refine ⟨_, .micro .e0 hb rfl rfl (exec_e0_working s w) <| .micro .e1 hb rfl rfl (exec_e1_working s _) <|
    .micro .e2 hb rfl rfl (exec_e2_working s _) <| .micro .e3 hb rfl rfl (exec_e3_working s _) <| .stop _, hfine, ?_⟩
  show (BitVec.ofInt 32 (asr ((BitVec.ofInt 32 s.cycleFine).toInt * 5 + 128) 8)).toInt = s.cycleT
  rw [hfine]
  exact toInt_ofInt32 hT

/-- E4 to E9 compute the denominator and `b` of CompP (R174). -/
theorem engineRun_denominator : EngineRun 6 (s.working 4 w) (s.working 10 { w with
    v1 := compDenominator w.tFine.toInt s.cal.P1 s.cal.P2 s.cal.P3
    v2 := (w.tFine.toInt - 128000) * (w.tFine.toInt - 128000) * s.cal.P6
      + shl ((w.tFine.toInt - 128000) * s.cal.P5) 17 + shl s.cal.P4 35 }) :=
  .micro .e4 hb rfl rfl (exec_e4_working s w) <| .micro .e5 hb rfl rfl (exec_e5_working s _) <|
    .micro .e6 hb rfl rfl (exec_e6_working s _) <| .micro .e7 hb rfl rfl (exec_e7_working s _) <|
    .micro .e8 hb rfl rfl (exec_e8_working s _) <| .micro .e9 hb rfl rfl (exec_e9_working s _) <| .stop _

/-- E4 to E16 on the sentinel path (R161), E4 to E15 on the other, compute CompP (R174). -/
theorem engineRun_pressure : ∃ n w', EngineRun n (s.working 4 w) (s.working 16 w') ∧
    n = (if compDenominator w.tFine.toInt s.cal.P1 s.cal.P2 s.cal.P3 = 0 then 7 else 12) ∧
    w'.tFine = w.tFine ∧ w'.tW = w.tW ∧
    (w'.pW.toNat : Int) = compP s.rawP w.tFine.toInt s.cal.P1 s.cal.P2 s.cal.P3 s.cal.P4 s.cal.P5 s.cal.P6
      s.cal.P7 s.cal.P8 s.cal.P9 := by
  have hrun := engineRun_denominator hb w
  by_cases hd : compDenominator w.tFine.toInt s.cal.P1 s.cal.P2 s.cal.P3 = 0
  · refine ⟨_, _, hrun.trans (.micro .e10 hb rfl rfl (exec_e10_working_of_zero s _ hd) (.stop _)), (if_pos hd).symm,
      rfl, rfl, ?_⟩
    rw [compP_of_zero hd]
    rfl
  · refine ⟨_, _, hrun.trans <| .micro .e10 hb rfl rfl (exec_e10_working_of_ne_zero s _ hd) <|
      .micro .e11 hb rfl rfl (exec_e11_working s _ hd) <| .micro .e12 hb rfl rfl (exec_e12_working s _) <|
      .micro .e13 hb rfl rfl (exec_e13_working s _) <| .micro .e14 hb rfl rfl (exec_e14_working s _) <|
      .micro .e15 hb rfl rfl (exec_e15_working s _) <| .stop _, (if_neg hd).symm, rfl, rfl, ?_⟩
    exact (toNat_ofInt_eq_emod 32 _).trans (compP_of_ne_zero hd _ _ _ _ _ _ _).symm

/-- E16 to E21 compute CompH (R175). -/
theorem engineRun_humidity : ∃ w', EngineRun 6 (s.working 16 w) (s.working 22 w') ∧
    w'.tFine = w.tFine ∧ w'.tW = w.tW ∧ w'.pW = w.pW ∧
    (w'.hW.toNat : Int) = compH s.rawH w.tFine.toInt s.cal.H1 s.cal.H2 s.cal.H3 s.cal.H4 s.cal.H5 s.cal.H6 := by
  refine ⟨_, .micro .e16 hb rfl rfl (exec_e16_working s w) <| .micro .e17 hb rfl rfl (exec_e17_working s _) <|
    .micro .e18 hb rfl rfl (exec_e18_working s _) <| .micro .e19 hb rfl rfl (exec_e19_working s _) <|
    .micro .e20 hb rfl rfl (exec_e20_working s _) <| .micro .e21 hb rfl rfl (exec_e21_working s _) <| .stop _,
    rfl, rfl, rfl, ?_⟩
  exact toNat_ofInt_compH _ _ _ _ _ _ _ _

end

/-- The engine done: the working registers `w`, and the triple taken from them (R173). -/
def State.committed (s : State) (w : Work) : State :=
  { s.working 0 w with tRes := w.tW, pRes := w.pW, hRes := w.hW, resValid := true, engPhase := .done }

theorem exec_e22_working (s : State) (w : Work) : exec .e22 (s.working 22 w) = .next (s.committed w) := rfl

/-- The whole run of the engine, from E0 to the commit (R143). -/
theorem engineRun_cycle (hb : s.busy = true) (w : Work) :
    ∃ w', EngineRun s.cycleMicroSteps (s.working 0 w) (s.committed w') ∧
      w'.tFine.toInt = s.cycleFine ∧ w'.tW.toInt = s.cycleT ∧ (w'.pW.toNat : Int) = s.cycleP ∧
      (w'.hW.toNat : Int) = s.cycleH := by
  obtain ⟨w₁, hT, hfine, htemp⟩ := engineRun_temperature hb w
  obtain ⟨n, w₂, hP, hn, hfine₂, htemp₂, hpress⟩ := engineRun_pressure hb w₁
  obtain ⟨w₃, hH, hfine₃, htemp₃, hpress₃, hhum⟩ := engineRun_humidity hb w₂
  have hcommit : EngineRun 1 (s.working 22 w₃) (s.committed w₃) :=
    .micro .e22 hb rfl rfl (exec_e22_working s w₃) (.stop _)
  have hcount : 4 + (n + (6 + 1)) = s.cycleMicroSteps := by
    rw [hfine] at hn
    rw [hn, State.cycleMicroSteps, State.cycleDenominator]
    split <;> rfl
  have hrun := hT.trans (hP.trans (hH.trans hcommit))
  rw [hcount] at hrun
  refine ⟨w₃, hrun, ?_, ?_, ?_, ?_⟩
  · rw [hfine₃, hfine₂, hfine]
  · rw [htemp₃, htemp₂, htemp]
  · rw [hpress₃, hpress, hfine]; rfl
  · rw [hhum, hfine₂, hfine]; rfl

/-- The engine runs at least one micro-step. -/
theorem cycleMicroSteps_pos (s : State) : 0 < s.cycleMicroSteps := by
  unfold State.cycleMicroSteps
  split <;> decide

/-- Settles O23: the run from E0 to the commit, one edge for each micro-step. -/
theorem engineComputesTheClosedForms : Obligations.EngineComputesTheClosedForms := by
  intro s hb hp hk hr
  obtain ⟨w, hrun, hfine, htemp, hpress, hhum⟩ := engineRun_cycle hb s.work
  have hstart : s.working 0 s.work = s := hk ▸ working_work hp
  rw [hstart] at hrun
  have hruns : RunsTo s.cycleMicroSteps s ((s.committed w).seeingNext (s.inputs.drop s.cycleMicroSteps)) := by
    have h := hrun.runsTo s.inputs hr
    obtain ⟨n, hn⟩ := Nat.exists_eq_add_of_lt (cycleMicroSteps_pos s)
    rw [hn] at h ⊢
    exact runsTo_of_seeingNext h
  refine ⟨_, hruns, hfine, htemp, hpress, hhum, rfl, rfl, rfl, ?_⟩
  rw [hk]
  rfl

end Sys2Proof.Machine
end

section
/-! MEASURE: its admission (R192), the trigger (R194, R195), one iteration of the poll loop (R196, R198), the raw reads
(R199 to R203), and the transitions of R191's table. -/

namespace Sys2Proof.Machine

variable {s s' : State} {inp : PortIn} {t : Transaction}

/-! ### Admission -/

/-- MEASURE begins with `mstate` as it is, Idle (R192). -/
def State.startMeasure (s : State) : State := { s with busy := true, curOp := .measure }

theorem exec_measure (s : State) :
    exec .measure s = takeCommand s (if s.calValid then none else some .calNotLoaded) s.startMeasure := rfl

theorem exec_measure_of_valid (hb : s.busy = false) (hv : s.calValid = true) :
    exec .measure s = .next s.startMeasure := by
  rw [exec_measure, hv]
  exact takeCommand_started hb _

theorem exec_measure_of_not_valid (hb : s.busy = false) (hv : s.calValid = false) :
    exec .measure s = .next (s.refuse .calNotLoaded) := by
  rw [exec_measure, hv]
  exact takeCommand_refused hb _ _

/-- Settles O11: the admission test of MEASURE is `cal_valid`. -/
theorem measureAdmission : Obligations.MeasureAdmission :=
  ⟨fun _ hb hv => exec_measure_of_not_valid hb hv, fun _ hb hv => exec_measure_of_valid hb hv⟩

/-! ### What MEASURE asks for in each state -/

theorem nextRequest_measure (hop : s.curOp = .measure) : nextRequest s = measureRequest s := by simp [nextRequest, hop]

theorem measureRequest_idle (hm : s.mstate = .idle) :
    measureRequest s = some (s.writeRequest 0xF4 s.params.ctrlMeasTrigger) := by simp [measureRequest, hm]

theorem measureRequest_triggered (hm : s.mstate = .triggered) : measureRequest s = none := by
  simp [measureRequest, hm]

theorem measureRequest_polling (hm : s.mstate = .polling) : measureRequest s = some (s.readRequest 0xF3 1) := by
  simp [measureRequest, hm]

theorem measureRequest_ready (hm : s.mstate = .ready) :
    measureRequest s = some (s.readRequest (rawOffset s.rdIdx) (rawLen s.rdIdx)) := by simp [measureRequest, hm]

/-- The transaction in flight in a MEASURE is the one its state asks for (R60). -/
theorem State.Inv.flight_eq_measureRequest (h : s.Inv) (hf : s.flight ≠ none) (hop : s.curOp = .measure) :
    s.flight = measureRequest s := by
  obtain ⟨t, ht⟩ := Option.ne_none_iff_exists'.mp hf
  rw [ht, ← nextRequest_measure hop, (h.flight_is_due t ht).2]

/-! ### The edges of a MEASURE outside the engine -/

/-- MEASURE is in progress: the sequencer has the edge. -/
structure State.Measuring (s : State) : Prop extends s.Sequencing where
  curOp : s.curOp = .measure

theorem State.Inv.engPhase_eq_off (h : s.Inv) (hm : s.mstate ≠ .ready) : s.engPhase = .off :=
  not_not.mp fun hp => hm (h.engine_only_in_ready hp).1

/-- In a MEASURE only the poll loop waits (R196). -/
theorem State.Inv.waiting_eq_false_of_measure (h : s.Inv) (hop : s.curOp = .measure) (hm : s.mstate ≠ .polling) :
    s.waiting = false := by
  by_contra hw
  obtain ⟨-, -, ⟨-, hp⟩ | ⟨hmotor, -⟩⟩ := h.wait_has_owner (Bool.eq_true_of_not_eq_false hw)
  · exact hm hp
  · exact not_motorRunning_of_measure hop hmotor

/-- By the invariant a MEASURE outside the engine and outside a wait has the sequencer. -/
theorem State.Inv.measuring (h : s.Inv) (hm : s.mstate ≠ .idle) (hp : s.engPhase = .off) (hw : s.waiting = false) :
    s.Measuring :=
  ⟨⟨(h.mstate_only_in_measure hm).1, hp, hw⟩, (h.mstate_only_in_measure hm).2⟩

/-- In Idle a MEASURE in progress always has the sequencer. -/
theorem State.Inv.measuring_of_idle (h : s.Inv) (hb : s.busy = true) (hop : s.curOp = .measure)
    (hm : s.mstate = .idle) : s.Measuring :=
  ⟨⟨hb, h.engPhase_eq_off (by simp [hm]), h.waiting_eq_false_of_measure hop (by simp [hm])⟩, hop⟩

theorem step_measureRequest (h : s.Measuring) (hf : s.flight = none) (hr : s.input.rst = false)
    (ht : measureRequest s = some t) : step s = .next (s.clockEdge.issue t) :=
  step_issue h.toSequencing hf hr ((nextRequest_measure h.curOp).trans ht)

theorem step_measureAnswered (h : s.Measuring) (hf : s.flight ≠ none) (hr : s.input.rst = false)
    (hv : s.input.busRespValid = true) (he : s.input.busRespErr = false) :
    step s = .next (measureAnswered s.clockEdge.endTransaction s.input.busRespRdata) := by
  rw [step_answered h.toSequencing hf hr hv, he, receive_measure (s := s.clockEdge) h.curOp]

/-- Triggered is left at once (R195). -/
theorem step_triggered (h : s.Measuring) (hm : s.mstate = .triggered) (hf : s.flight = none)
    (hr : s.input.rst = false) : step s = .next { s.clockEdge with mstate := .polling } := by
  have hreq : nextRequest s.clockEdge = none := nextRequest_eq_none_iff.mpr (.inl ⟨h.curOp, hm⟩)
  rw [step_sequencing h.toSequencing hr]
  simp [sequenceEdge, sequenceAdvance, h.waiting, hf, hreq, internalAdvance_measure, h.curOp]

theorem State.Inv.flight_eq_none_of_triggered (h : s.Inv) (hm : s.mstate = .triggered) : s.flight = none := by
  by_contra hf
  have hop := (h.mstate_only_in_measure (by simp [hm])).2
  exact hf ((h.flight_eq_measureRequest hf hop).trans (measureRequest_triggered hm))

/-- Settles O37: the request and the answer in Idle, and the edge of Triggered. -/
theorem triggerLeadsToPolling : Obligations.TriggerLeadsToPolling := by
  refine ⟨fun s h hb hop hm hf hr => ?_, fun s h hb hop hm hf hr hv he => ?_, fun s h hm hr => ?_⟩
  · exact step_measureRequest (h.measuring_of_idle hb hop hm) hf hr (measureRequest_idle hm)
  · rw [step_measureAnswered (h.measuring_of_idle hb hop hm) hf hr hv he,
      measureAnswered_idle (s := s.clockEdge.endTransaction) hm]
    rfl
  · have hop := (h.mstate_only_in_measure (by simp [hm])).2
    have hmeas : s.Measuring := h.measuring (by simp [hm]) (h.engPhase_eq_off (by simp [hm]))
      (h.waiting_eq_false_of_measure hop (by simp [hm]))
    exact step_triggered hmeas hm (h.flight_eq_none_of_triggered hm) hr

/-! ### The poll loop -/

/-- `b[0]` is the low byte of the answer, so the flag is bit 3 of it (R44, R196). -/
theorem measuring_eq_getLsbD (r : BitVec 24) : measuring r = r.getLsbD 3 := by simp [measuring, byte0]

theorem statusAnswered_of_measuring {r : BitVec 24} (h : measuring r = true) :
    statusAnswered s r = s.startWait s.params.pollIntervalUs := if_pos h

theorem statusAnswered_of_not_measuring {r : BitVec 24} (h : measuring r = false) :
    statusAnswered s r = { s with mstate := .ready } := by simp [statusAnswered, h]

/-- Settles O38: the status read of Polling, and its answer by bit 3. -/
theorem statusBitThreeDecides : Obligations.StatusBitThreeDecides := by
  refine ⟨fun s h hm hf hw hr => ⟨0, ?_⟩, fun s h hm hf hr hv he => ?_⟩
  · have hmeas : s.Measuring := h.measuring (by simp [hm]) (h.engPhase_eq_off (by simp [hm])) hw
    exact step_measureRequest hmeas hf hr (measureRequest_polling hm)
  · have hmeas : s.Measuring :=
      h.measuring (by simp [hm]) (h.engPhase_eq_off (by simp [hm])) (h.waiting_eq_false hf)
    rw [step_measureAnswered hmeas hf hr hv he, measureAnswered_polling (s := s.clockEdge.endTransaction) hm,
      ← measuring_eq_getLsbD]
    exact ⟨fun hbit => by rw [statusAnswered_of_measuring hbit]; rfl,
      fun hbit => by rw [statusAnswered_of_not_measuring hbit]; rfl⟩

/-! ### The raw reads -/

/-- Settles O39: the read of the group `rd_idx` names, and its answer group by group. -/
theorem rawGroupsAreReadInOrder : Obligations.RawGroupsAreReadInOrder := by
  intro s h hm hp hr
  have hop := (h.mstate_only_in_measure (by simp [hm])).2
  have hmeas : s.Measuring :=
    h.measuring (by simp [hm]) hp (h.waiting_eq_false_of_measure hop (by simp [hm]))
  refine ⟨fun hf => ⟨0, ?_⟩, fun hf hv he => ?_⟩
  · rw [step_measureRequest hmeas hf hr (measureRequest_ready hm)]
    cases s.rdIdx <;> rfl
  · rw [step_measureAnswered hmeas hf hr hv he, measureAnswered_ready (s := s.clockEdge.endTransaction) hm]
    refine ⟨fun hg => ?_, fun hg => ?_, fun hg => ?_⟩
    · rw [rawAnswered_pressure (s := s.clockEdge.endTransaction) hg]; rfl
    · rw [rawAnswered_temperature (s := s.clockEdge.endTransaction) hg]; rfl
    · rw [rawAnswered_humidity (s := s.clockEdge.endTransaction) hg]; rfl

/-! ### The transitions of R191 -/

theorem PortStep.mstate_eq (hs : PortStep inp s s') : s'.mstate = s.mstate := by
  cases hs <;> rfl

/-- Only the completion after the commit changes `mstate` in the engine (R204). -/
theorem EngineStep.mstate_cases (hs : EngineStep s s') :
    s'.mstate = s.mstate ∨ (s.engPhase = .done ∧ s' = finishMeasure s) := by
  cases hs with
  | work | commit => exact .inl rfl
  | finish hp => exact .inr ⟨hp, rfl⟩

/-- Outside the engine only an answer to MEASURE, or the edge that leaves Triggered, changes `mstate`. -/
theorem SequencerStep.mstate_cases (hs : SequencerStep s s') :
    s'.mstate = s.mstate ∨ (s.curOp = .measure ∧ s.flight ≠ none) ∨
    (s.curOp = .measure ∧ s.flight = none ∧ s.waiting = false ∧ s.mstate = .triggered ∧
      s'.mstate = .polling) := by
  cases hs with
  | measureFailed hf hop | triggered hf hop | measured hf hop => exact .inr (.inl ⟨hop, hf⟩)
  | leaveTriggered hw hf hop hm => exact .inr (.inr ⟨hop, hf, hw, hm, rfl⟩)
  | _ => exact .inl rfl

/-- A successful answer changes `mstate` in Idle, and in Polling when bit 3 is clear (R194, R198). -/
theorem measureAnswered_mstate_cases (s : State) (r : BitVec 24) :
    (measureAnswered s r).mstate = s.mstate ∨
    (s.mstate = .idle ∧ (measureAnswered s r).mstate = .triggered) ∨
    (s.mstate = .polling ∧ measuring r = false ∧ (measureAnswered s r).mstate = .ready) := by
  cases hm : s.mstate with
  | idle => exact .inr (.inl ⟨rfl, by rw [measureAnswered_idle hm]⟩)
  | triggered => exact .inl (by simp [measureAnswered, hm])
  | polling =>
    rw [measureAnswered_polling hm]
    rcases statusAnswered_cases s r with ⟨-, he⟩ | ⟨hbit, he⟩ <;> rw [he]
    · exact .inl hm
    · exact .inr (.inr ⟨rfl, hbit, rfl⟩)
  | ready =>
    rw [measureAnswered_ready hm]
    cases hg : s.rdIdx with
    | pressure => exact .inl (by rw [rawAnswered_pressure hg]; exact hm)
    | temperature => exact .inl (by rw [rawAnswered_temperature hg]; exact hm)
    | humidity => exact .inl (by rw [rawAnswered_humidity hg]; exact hm)

/-- Where `mstate` changes while a transaction is in flight, the transaction has been answered: with a failure, which
leads to Idle (R197), or with a success. -/
theorem step_measure_answer_cases (h : s.Inv) (hf : s.flight ≠ none) (hop : s.curOp = .measure)
    (hr : s.input.rst = false) (hs : step s = .next s') (hne : s'.mstate ≠ s.mstate) :
    s.input.busRespValid = true ∧
    ((s.input.busRespErr = true ∧ s'.mstate = .idle ∧ s'.err = .busError ∧ s'.busy = false) ∨
      (s.input.busRespErr = false ∧ s' = measureAnswered s.clockEdge.endTransaction s.input.busRespRdata)) := by
  rw [step_of_flight h hf hr] at hs
  cases hv : s.input.busRespValid with
  | false =>
    rw [hv] at hs
    cases hs
    exact absurd rfl hne
  | true =>
    rw [hv, if_pos rfl] at hs
    cases he : s.input.busRespErr with
    | true =>
      rw [he, receive_measure_failed (s := s.clockEdge) hop] at hs
      cases hs
      exact ⟨rfl, .inl ⟨rfl, rfl, rfl, rfl⟩⟩
    | false =>
      rw [he, receive_measure (s := s.clockEdge) hop] at hs
      cases hs
      exact ⟨rfl, .inr ⟨rfl, rfl⟩⟩

/-- Settles O36: the engine's completion, the edge that leaves Triggered, and the answers, each to the transaction its
state asks for. -/
theorem measurementStateTransitions : Obligations.MeasurementStateTransitions := by
  intro s s' h hr hs hne
  rcases step_cases_of_inv h hr hs with ⟨-, hstep⟩ | ⟨hb, hstep⟩ | ⟨hb, hoff, hstep⟩
  · exact absurd hstep.mstate_eq hne
  · obtain ⟨hp, rfl⟩ : s.engPhase = .done ∧ s' = finishMeasure s.clockEdge := hstep.mstate_cases.resolve_left hne
    have hon : s.engPhase ≠ .off := by simp [hp]
    refine ⟨hb, h.curOp_eq_measure hon, ?_⟩
    exact .inr (.inr (.inr (.inr (.inl ⟨(h.engine_only_in_ready hon).1, rfl, hp, rfl, rfl⟩))))
  · rcases hstep.mstate_cases.resolve_left hne with ⟨hop, hf⟩ | ⟨hop, hf, hw, hm, hm'⟩
    · have hreq := h.flight_eq_measureRequest hf hop
      obtain ⟨hv, ⟨he, hm', herr, hb'⟩ | ⟨he, rfl⟩⟩ := step_measure_answer_cases h hf hop hr hs hne
      · refine ⟨hb, hop, ?_⟩
        cases hm : s.mstate with
        | idle => exact absurd (hm'.trans hm.symm) hne
        | triggered => exact absurd (h.flight_eq_none_of_triggered hm) hf
        | polling =>
          exact .inr (.inr (.inr (.inl ⟨rfl, hm', hreq.trans (measureRequest_polling hm), hv, he, herr, hb'⟩)))
        | ready =>
          refine .inr (.inr (.inr (.inr (.inr ⟨rfl, hm', hoff, ?_, hv, he, herr, hb'⟩))))
          rw [hreq, measureRequest_ready hm]
          cases s.rdIdx <;> rfl
      · refine ⟨hb, hop, ?_⟩
        rcases (measureAnswered_mstate_cases _ _).resolve_left hne with ⟨hm, hm'⟩ | ⟨hm, hbit, hm'⟩
        · exact .inl ⟨hm, hm', hreq.trans (measureRequest_idle hm), hv, he⟩
        · exact .inr (.inr (.inl ⟨hm, hm', hreq.trans (measureRequest_polling hm), hv, he,
            (measuring_eq_getLsbD _).symm.trans hbit⟩))
    · exact ⟨hb, hop, .inr (.inl ⟨hm, hm', hf, hw⟩)⟩

end Sys2Proof.Machine
end

section
/-! The whole MEASURE (R190, R194 to R204): where each script of inputs leads, in a form that composes, and the scripts
of one cycle one after the other. -/

namespace Sys2Proof.Machine

variable {s t u : State} {l l' : List PortIn} {m : MState} {g : RawGroup} {k n : Nat} {r : BitVec 24}

/-! ### Scripts -/

/-- Between two edges with `done` low, the inputs `l` lead from `s` to `t`, whatever inputs follow. -/
def Passes (l : List PortIn) (s t : State) : Prop :=
  ∀ rest, RunsTo l.length (s.seeingNext (l ++ rest)) (t.seeingNext rest)

theorem Passes.nil (s : State) : Passes [] s s := fun _ => runsTo_zero _

theorem Passes.trans (h : Passes l s t) (h' : Passes l' t u) : Passes (l ++ l') s u := by
  intro rest
  rw [List.length_append, List.append_assoc]
  exact (h _).trans (h' rest)

theorem passes_one {inp : PortIn}
    (h : ∀ rest, step (s.seeingNext (inp :: rest)) = .next (t.seeingNext rest)) : Passes [inp] s t :=
  fun rest => runsTo_one (h rest)

/-! ### A wait -/

theorem step_waiting (hb : s.busy = true) (hoff : s.engPhase = .off) (hw : s.waiting = true)
    (hr : s.input.rst = false) : step s = .next (s.clockEdge.waitEdge s.input.tickUs) := by
  rw [step_busy hr hb, busyEdge_off (s := s.clockEdge) hoff]
  simp [sequenceEdge, hw]

theorem endWait_seeingNext (s : State) (l : List PortIn) : (s.seeingNext l).endWait = s.endWait.seeingNext l := by
  unfold State.endWait
  cases hop : s.curOp <;> simp [State.seeingNext, hop]

/-- A wait lasts its ticks and the edge that ends it (R280). -/
theorem passes_waitOut (hb : s.busy = true) (hoff : s.engPhase = .off) (hw : s.waiting = true)
    (hn : s.dlyCnt.toNat = n) : Passes (waitOut n) s { s with dlyCnt := 0 }.endWait := by
  induction n generalizing s with
  | zero =>
    have hz : s.dlyCnt = 0 := BitVec.eq_of_toNat_eq hn
    refine passes_one fun rest => ?_
    rw [step_waiting (s := s.seeingNext _) hb hoff hw rfl, ← hz]
    exact congrArg _ ((if_pos hz).trans (endWait_seeingNext s rest))
  | succ n ih =>
    have hne : s.dlyCnt ≠ 0 := by rintro h; simp [h] at hn
    have htick : Passes [.tick] s { s with dlyCnt := s.dlyCnt - 1 } := passes_one fun rest => by
      rw [step_waiting (s := s.seeingNext _) hb hoff hw rfl]
      exact congrArg _ (if_neg hne)
    exact htick.trans (ih (s := { s with dlyCnt := s.dlyCnt - 1 }) hb hoff hw
      (show (s.dlyCnt - 1).toNat = n by bv_omega))

/-! ### The transactions of a MEASURE -/

/-- `s` in a MEASURE outside the engine that has come to `m` and to the raw group `g`, with nothing in flight and no
wait. -/
def State.inMeasure (s : State) (m : MState) (g : RawGroup) : State :=
  { s with
    busy := true, curOp := .measure, mstate := m, rdIdx := g
    engPhase := .off, waiting := false, dlyCnt := 0, flight := none }

/-- The transaction that is due is issued and answered, after any number of stalls; `u` is what the answer makes of the
block. -/
theorem passes_answerAfter (hm : m ≠ .triggered)
    (hu : ∀ l, measureAnswered ((s.inMeasure m g).seeingNext l) r = u.seeingNext l) :
    Passes (answerAfter k r) (s.inMeasure m g) u := by
  intro rest
  have hreq : nextRequest ((s.inMeasure m g).seeingNext (answerAfter k r ++ rest)) ≠ none := by
    simp [nextRequest_eq_none_iff, State.inMeasure, State.seeingNext, hm, Op.isMotor]
  obtain ⟨t, ht⟩ := Option.ne_none_iff_exists'.mp hreq
  have hrun := runsTo_transaction ⟨rfl, rfl, rfl⟩ rfl ht rfl
  rw [receive_measure rfl] at hrun
  rw [← hu rest]
  exact hrun

/-- The trigger write (R194). -/
theorem passes_trigger : Passes (answerAfter k r) (s.inMeasure .idle g) (s.inMeasure .triggered g) :=
  passes_answerAfter (by decide) fun _ => rfl

/-- Triggered is left with no transaction (R195). -/
theorem passes_leaveTriggered : Passes [.quiet] (s.inMeasure .triggered g) (s.inMeasure .polling g) :=
  passes_one fun _ => rfl

/-- A status read with bit 3 set, and the wait of the poll interval (R196). -/
theorem passes_poll (hbit : measuring r = true) :
    Passes (answerAfter k r ++ waitOut s.params.pollIntervalUs.toNat) (s.inMeasure .polling g)
      (s.inMeasure .polling g) := by
  have hread : Passes (answerAfter k r) (s.inMeasure .polling g)
      ((s.inMeasure .polling g).startWait s.params.pollIntervalUs) :=
    passes_answerAfter (by decide) fun _ => statusAnswered_of_measuring hbit
  exact hread.trans (passes_waitOut rfl rfl rfl rfl)

/-- However often bit 3 is set, MEASURE stays in the poll loop (R196). -/
theorem passes_polls (polls : List (Nat × BitVec 24)) (h : ∀ p ∈ polls, measuring p.2 = true) :
    Passes (pollInputs s.params.pollIntervalUs.toNat polls) (s.inMeasure .polling g) (s.inMeasure .polling g) := by
  induction polls with
  | nil => exact .nil _
  | cons p ps ih =>
    obtain ⟨hp, hps⟩ := List.forall_mem_cons.mp h
    exact (passes_poll hp).trans (ih hps)

/-- A status read with bit 3 clear (R198). -/
theorem passes_lastPoll (hbit : measuring r = false) :
    Passes (answerAfter k r) (s.inMeasure .polling g) (s.inMeasure .ready g) :=
  passes_answerAfter (by decide) fun _ => statusAnswered_of_not_measuring hbit

/-- The read of the pressure group (R199). -/
theorem passes_pressure : Passes (answerAfter k r) (s.inMeasure .ready .pressure)
    ({ s with adcP := be20 r }.inMeasure .ready .temperature) :=
  passes_answerAfter (by decide) fun _ => rfl

/-- The read of the temperature group (R200). -/
theorem passes_temperature : Passes (answerAfter k r) (s.inMeasure .ready .temperature)
    ({ s with adcT := be20 r }.inMeasure .ready .humidity) :=
  passes_answerAfter (by decide) fun _ => rfl

/-- The read of the humidity group, after which the engine has come to E0 (R201, R203). -/
theorem passes_humidity : Passes (answerAfter k r) (s.inMeasure .ready .humidity)
    (({ s with adcH := be16 r }.inMeasure .ready .pressure).working 0 s.work) :=
  passes_answerAfter (by decide) fun _ => rfl

/-! ### The engine and the completion -/

/-- The engine's run from E0 to the commit looks at no input but `rst`. -/
theorem passes_engine (h : EngineRun n s t) : Passes (List.replicate n .quiet) s t := by
  intro rest
  have hquiet : ∀ k < n, ((List.replicate n PortIn.quiet ++ rest).getD k .quiet).rst = false := by
    intro k hk
    simp [List.getD_eq_getElem?_getD, List.getElem?_append_left, hk, PortIn.quiet]
  have hrun := h.runsTo _ hquiet
  rw [List.drop_left' List.length_replicate] at hrun
  rwa [List.length_replicate]

/-- The edge after the commit completes MEASURE (R204). -/
theorem step_finishMeasure (hb : s.busy = true) (hp : s.engPhase = .done) (hr : s.input.rst = false) :
    step s = .next (finishMeasure s.clockEdge) :=
  (step_busy hr hb).trans (busyEdge_done (s := s.clockEdge) hp)

/-! ### The whole command -/

/-- A block that takes commands has nothing under way. -/
theorem State.Ready.atRest (h : s.Ready) : s.AtRest := by
  obtain ⟨hm, hf, hw, hp⟩ := h.inv.idle_at_rest h.idle
  exact {
    busy := h.idle, mstate := hm, engPhase := hp, waiting := hw, flight := hf
    calIdx := not_not.mp fun hi => nomatch h.idle.symm.trans (h.inv.cal_idx_only_in_load hi).1
    rdIdx := h.inv.rdIdx_eq_pressure (by simp [hm])
    engStep := h.inv.eng_step_rests_at_zero (by simp [hp])
    unitsLeft := h.inv.unitsLeft_eq_zero (not_motorRunning_of_idle h.idle)
    entLeft := h.inv.entLeft_eq_zero (not_motorRunning_of_idle h.idle)
    dlyCnt := h.inv.no_count_outside_wait hw }

/-- The edge that takes the word of MEASURE (R95, R192). -/
theorem step_startMeasure {rest : List PortIn} (h : s.Ready) (hv : s.calValid = true)
    (hin : s.inputs = .offer 0x0200000000000000 :: rest) :
    step s = .next ((s.inMeasure .idle .pressure).seeingNext rest) := by
  have hi : s.input = .offer 0x0200000000000000 := input_of_inputs hin
  rw [step_idle (hi ▸ rfl) h.idle, hi, idleEdge_legal (i := .measure) rfl (by decide),
    exec_measure_of_valid (s := s.clockEdge) h.idle hv, clockEdge_of_inputs hin]
  have hrest := h.atRest
  simp [State.startMeasure, State.inMeasure, State.seeingNext, hrest.mstate, hrest.rdIdx, hrest.engPhase, hrest.waiting,
    hrest.dlyCnt, hrest.flight]

/-- The inputs of a cycle up to the answer of the humidity read: the part before the engine runs (R194 to R201). -/
def busInputs (a : CycleAnswers) (s : State) : List PortIn :=
  answerAfter a.trigger.1 a.trigger.2 ++ [.quiet] ++ pollInputs s.params.pollIntervalUs.toNat a.polls
    ++ answerAfter a.last.1 a.last.2 ++ answerAfter a.pressure.1 a.pressure.2
    ++ answerAfter a.temperature.1 a.temperature.2 ++ answerAfter a.humidity.1 a.humidity.2

/-- After the bus come the edges of the micro-steps, and the edge of the completion. -/
theorem inputs_eq_busInputs_append (a : CycleAnswers) (s : State) :
    a.inputs s = busInputs a s ++ List.replicate (a.raw s).cycleMicroSteps .quiet ++ [.quiet] := by
  simp only [CycleAnswers.inputs, busInputs, List.replicate_succ', List.append_assoc]

/-- From the trigger to the last raw read, the answers of a cycle bring the engine to E0 with the cycle's raw values. -/
theorem passes_busInputs (a : CycleAnswers) (ha : a.pollsEnd) :
    Passes (busInputs a s) (s.inMeasure .idle .pressure)
      (((a.raw s).inMeasure .ready .pressure).working 0 s.work) := by
  obtain ⟨hpolls, hlast⟩ := ha
  exact (((((passes_trigger.trans passes_leaveTriggered).trans (passes_polls a.polls hpolls)).trans
    (passes_lastPoll hlast)).trans passes_pressure).trans passes_temperature).trans passes_humidity

/-- The completion puts the sequencing registers back where a block at rest has them, so that only the cycle's values,
the flags and the engine's registers differ from before the command (R204). -/
theorem finishMeasure_committed {rest : List PortIn} (h : s.Ready) (a : CycleAnswers) (w : Work) :
    let t := finishMeasure ((((a.raw s).inMeasure .ready .pressure).committed w).seeingNext rest)
    t = { a.raw s with
      tFine := t.tFine, tRes := t.tRes, pRes := t.pRes, hRes := t.hRes, resValid := true
      v1 := t.v1, v2 := t.v2, acc := t.acc, tW := t.tW, pW := t.pW, hW := t.hW
      curOp := .measure, err := .ok, done := true, inputs := rest, freeCount := t.freeCount } := by
  have hrest := h.atRest
  simp [finishMeasure, State.complete, State.forgetWork, State.committed, State.working, State.seeingNext,
    State.inMeasure, CycleAnswers.raw, hrest.busy, hrest.mstate, hrest.rdIdx, hrest.engStep, hrest.engPhase,
    hrest.waiting, hrest.dlyCnt, hrest.flight]

/-- Settles O35: the word is taken, the cycle's answers bring the engine to E0, it runs to the commit, and one more edge
completes the command. -/
theorem measureRunsToCompletion : Obligations.MeasureRunsToCompletion := by
  intro s a rest h hv ha hin
  obtain ⟨w, hengine, hfine, htemp, hpress, hhum⟩ :=
    engineRun_cycle (s := (a.raw s).inMeasure .ready .pressure) rfl s.work
  have htake := step_startMeasure (rest := a.inputs s ++ rest) h hv hin
  have hcommit := (passes_busInputs a ha).trans (passes_engine hengine) (.quiet :: rest)
  have hfinish := runsTo_one (step_finishMeasure
    (s := (((a.raw s).inMeasure .ready .pressure).committed w).seeingNext (.quiet :: rest)) rfl rfl rfl)
  rw [inputs_eq_busInputs_append, List.append_assoc] at htake
  refine ⟨_, ?_, hfine, htemp, hpress, hhum, finishMeasure_committed h a w⟩
  rw [inputs_eq_busInputs_append, List.length_append]
  exact (runsTo_one htake).trans (hcommit.trans hfinish)

end Sys2Proof.Machine
end

section
/-! The motor's step counts are the exact rational ones (R226, R227, R230 to R232): the model's floors and ceilings are
those of ℚ, and both commands end in the motor's range. -/

namespace Sys2Proof.Machine

variable {p : Params} {pos target : Int}

/-! ### Floors and ceilings over ℚ -/

theorem floor_eq_floorDiv (a : Int) (b : Nat) : ⌊(a : ℚ) / (b : ℚ)⌋ = floorDiv a b :=
  Rat.floor_intCast_div_natCast a b

theorem ceil_eq_ceilDiv (a : Int) (b : Nat) : ⌈(a : ℚ) / (b : ℚ)⌉ = ceilDiv a b :=
  Rat.ceil_intCast_div_natCast a b

theorem res_pos (h : p.wf) : (0 : ℚ) < p.res := Nat.cast_pos.mpr h.1

/-- `angle / 360 × RES` gives the units of an angle: `pos` itself for the angle at `pos` (R221). -/
theorem units_of_angleOf (h : p.wf) (pos : Int) : angleOf p pos / 360 * p.res = pos := by
  have := res_pos h
  simp only [angleOf]
  field

/-! ### ROTATE_BY -/

/-- The units from `pos` to the boundary in the direction of `cw` (R227). -/
def boundaryUnits (p : Params) (pos : Int) (cw : Bool) : Int := if cw then halfTurn p - pos else halfTurn p + pos

theorem boundaryUnits_nonneg (hlo : -halfTurn p ≤ pos) (hhi : pos ≤ halfTurn p) (cw : Bool) :
    0 ≤ boundaryUnits p pos cw := by
  cases cw <;> simp only [boundaryUnits, Bool.false_eq_true, if_true, if_false] <;> omega

/-- In range the step count is the smaller of N and the units to the boundary, with no cut at 0 (R227). -/
theorem rotateByUnits_eq_min (hlo : -halfTurn p ≤ pos) (hhi : pos ≤ halfTurn p) (cw : Bool) (A : Nat) :
    (rotateByUnits p pos cw A : Int) = min ((A * p.res / 360 : Nat) : Int) (boundaryUnits p pos cw) :=
  Int.toNat_of_nonneg (le_min (Int.natCast_nonneg _) (boundaryUnits_nonneg hlo hhi cw))

/-- Half a turn is `RES / 2` units, and whole units are floored as HALF is (R221). -/
theorem floor_half_add (p : Params) (n : Int) : ⌊(p.res : ℚ) / 2 + n⌋ = halfTurn p + n := by
  rw [Int.floor_add_intCast]
  exact congrArg (· + n) (floor_eq_floorDiv p.res 2)

/-- The angle to the boundary, in units, has the units to the boundary as its floor. -/
theorem floor_boundary (h : p.wf) (pos : Int) (cw : Bool) :
    ⌊(if cw then 180 - angleOf p pos else angleOf p pos + 180) / 360 * (p.res : ℚ)⌋ = boundaryUnits p pos cw := by
  have hpos := units_of_angleOf h pos
  cases cw with
  | true =>
    have hunits : (180 - angleOf p pos) / 360 * (p.res : ℚ) = (p.res : ℚ) / 2 + (-pos : Int) := by
      push_cast; linear_combination -hpos
    exact (congrArg _ hunits).trans (floor_half_add p (-pos))
  | false =>
    have hunits : (angleOf p pos + 180) / 360 * (p.res : ℚ) = (p.res : ℚ) / 2 + pos := by
      linear_combination hpos
    exact (congrArg _ hunits).trans (floor_half_add p pos)

/-- The floor of the smaller angle is the smaller of the floors (R226). -/
theorem rotateByUnitsExact_eq_min (h : p.wf) (pos : Int) (cw : Bool) (A : Nat) :
    rotateByUnitsExact p pos cw A = min ((A * p.res / 360 : Nat) : Int) (boundaryUnits p pos cw) := by
  have hN : ⌊(A : ℚ) / 360 * (p.res : ℚ)⌋ = ((A * p.res / 360 : Nat) : Int) := by
    rw [div_mul_eq_mul_div]
    exact_mod_cast Rat.floor_natCast_div_natCast (A * p.res) 360
  rw [rotateByUnitsExact, ← min_div_div_right (by norm_num), min_mul_of_nonneg _ _ (res_pos h).le,
    Int.floor_mono.map_min, hN, floor_boundary h]

/-- Settles O40: both forms are the smaller of N and the units to the boundary. -/
theorem rotateByIntegerFormIsExact : Obligations.RotateByIntegerFormIsExact := by
  intro p pos cw A h hlo hhi
  exact ⟨rotateByUnits_eq_min hlo hhi cw A,
    (rotateByUnits_eq_min hlo hhi cw A).trans (rotateByUnitsExact_eq_min h pos cw A).symm⟩

/-! ### ROTATE_TO -/

/-- `q = tc × RES / 360`, the target in units (R231). -/
def targetUnits (p : Params) (target : Int) : ℚ := (clampTarget target : ℚ) * (p.res : ℚ) / 360

theorem targetUnits_eq (p : Params) (target : Int) :
    targetUnits p target = ((clampTarget target * p.res : Int) : ℚ) / ((360 : Nat) : ℚ) := by
  simp [targetUnits]

theorem rotateToDir_eq_forward_iff :
    rotateToDir p pos target = .forward ↔ clampTarget target * p.res > pos * 360 := by
  simp [rotateToDir]

theorem rotateToDir_eq_backward_iff :
    rotateToDir p pos target = .backward ↔ clampTarget target * p.res ≤ pos * 360 := by
  simp [rotateToDir]

theorem rotateToEnd_of_forward (hd : rotateToDir p pos target = .forward) :
    rotateToEnd p pos target = ⌊targetUnits p target⌋ := by
  rw [targetUnits_eq, floor_eq_floorDiv]
  simp only [rotateToEnd, hd]

theorem rotateToEnd_of_backward (hd : rotateToDir p pos target = .backward) :
    rotateToEnd p pos target = ⌈targetUnits p target⌉ := by
  rw [targetUnits_eq, ceil_eq_ceilDiv]
  simp only [rotateToEnd, hd]

/-- Forward the end position is not behind `pos`, so the step count is their distance. -/
theorem rotateToUnits_of_forward (hd : rotateToDir p pos target = .forward) :
    (rotateToUnits p pos target : Int) = rotateToEnd p pos target - pos := by
  have hgt := rotateToDir_eq_forward_iff.mp hd
  simp only [rotateToUnits, rotateToEnd, hd, floorDiv]
  omega

theorem rotateToUnits_of_backward (hd : rotateToDir p pos target = .backward) :
    (rotateToUnits p pos target : Int) = pos - rotateToEnd p pos target := by
  have hle := rotateToDir_eq_backward_iff.mp hd
  simp only [rotateToUnits, rotateToEnd, hd, ceilDiv]
  omega

/-- The target is at most half a turn either way, and ROTATE_TO never passes it (R230). -/
theorem rotateToEnd_in_range (hlo : -halfTurn p ≤ pos) (hhi : pos ≤ halfTurn p) (target : Int) :
    -halfTurn p ≤ rotateToEnd p pos target ∧ rotateToEnd p pos target ≤ halfTurn p := by
  have ⟨htlo, hthi⟩ := clamp_within target (show (-180 : Int) ≤ 180 by decide)
  have hmin : -180 * (p.res : Int) ≤ clampTarget target * p.res := mul_le_mul_of_nonneg_right htlo (by positivity)
  have hmax : clampTarget target * p.res ≤ 180 * (p.res : Int) := mul_le_mul_of_nonneg_right hthi (by positivity)
  unfold halfTurn at *
  cases hd : rotateToDir p pos target with
  | forward =>
    have hgt := rotateToDir_eq_forward_iff.mp hd
    simp only [rotateToEnd, hd, floorDiv]
    omega
  | backward =>
    have hle := rotateToDir_eq_backward_iff.mp hd
    simp only [rotateToEnd, hd, ceilDiv]
    omega

/-- In units delta is `q − pos` (R230, R231). -/
theorem units_of_rotateToDelta (h : p.wf) (pos target : Int) :
    rotateToDelta p pos target / 360 * p.res = targetUnits p target - pos := by
  have hpos := units_of_angleOf h pos
  simp only [rotateToDelta, targetUnits]
  linear_combination -hpos

theorem rotateToDelta_pos_iff (h : p.wf) :
    0 < rotateToDelta p pos target ↔ clampTarget target * p.res > pos * 360 := by
  have hres := res_pos h
  rw [rotateToDelta, sub_pos, angleOf, div_lt_iff₀ hres, gt_iff_lt]
  exact_mod_cast Iff.rfl

/-- R230's floor of the magnitude is the distance to the end position, direction by direction (R231). -/
theorem rotateToUnits_eq_exact (h : p.wf) (pos target : Int) :
    (rotateToUnits p pos target : Int) = rotateToUnitsExact p pos target := by
  have hunits := units_of_rotateToDelta h pos target
  have hdir := rotateToDelta_pos_iff (pos := pos) (target := target) h
  cases hd : rotateToDir p pos target with
  | forward =>
    have hdelta := hdir.mpr (rotateToDir_eq_forward_iff.mp hd)
    rw [rotateToUnits_of_forward hd, rotateToEnd_of_forward hd, rotateToUnitsExact, abs_of_pos hdelta, hunits,
      Int.floor_sub_intCast]
  | backward =>
    have hdelta := not_lt.mp (mt hdir.mp (not_lt.mpr (rotateToDir_eq_backward_iff.mp hd)))
    rw [rotateToUnits_of_backward hd, rotateToEnd_of_backward hd, rotateToUnitsExact, abs_of_nonpos hdelta, neg_div,
      neg_mul, hunits, neg_sub, sub_eq_add_neg, sub_eq_add_neg, Int.floor_intCast_add, Int.floor_neg]

/-- Settles O41: each clause is one of the lemmas above. -/
theorem rotateToIntegerFormIsExact : Obligations.RotateToIntegerFormIsExact := by
  intro p pos TGT h hlo hhi tc q
  refine ⟨rotateToDir_eq_forward_iff.trans (rotateToDelta_pos_iff h).symm, rotateToDir_eq_forward_iff,
    rotateToUnits_eq_exact h pos TGT, fun hd => ?_, fun hd => ?_, rotateToEnd_in_range hlo hhi TGT⟩
  · have hend : rotateToEnd p pos TGT = ⌊q⌋ := rotateToEnd_of_forward hd
    exact ⟨(rotateToUnits_of_forward hd).trans (congrArg (· - pos) hend), hend⟩
  · have hend : rotateToEnd p pos TGT = ⌈q⌉ := rotateToEnd_of_backward hd
    exact ⟨(rotateToUnits_of_backward hd).trans (congrArg (pos - ·) hend), hend⟩

/-- A second call ends where the first one did: from floor(q) or ceil(q) it goes no further (R232). -/
theorem rotateToEnd_rotateToEnd (p : Params) (pos target : Int) :
    rotateToEnd p (rotateToEnd p pos target) target = rotateToEnd p pos target := by
  cases hd : rotateToDir p pos target with
  | forward =>
    cases hd' : rotateToDir p (rotateToEnd p pos target) target with
    | forward => rw [rotateToEnd_of_forward hd', rotateToEnd_of_forward hd]
    | backward =>
      have hle := rotateToDir_eq_backward_iff.mp hd'
      simp only [rotateToEnd, hd, floorDiv] at hle hd' ⊢
      simp only [hd', ceilDiv]
      omega
  | backward =>
    cases hd' : rotateToDir p (rotateToEnd p pos target) target with
    | forward =>
      have hgt := rotateToDir_eq_forward_iff.mp hd'
      simp only [rotateToEnd, hd, ceilDiv] at hgt
      omega
    | backward => rw [rotateToEnd_of_backward hd', rotateToEnd_of_backward hd]

/-- Settles O42: the step count is the distance to the end position, which a second call does not move. -/
theorem rotateToIsIdempotent : Obligations.RotateToIsIdempotent := by
  intro p pos TGT _ _ _
  have hend := rotateToEnd_rotateToEnd p pos TGT
  cases hd : rotateToDir p (rotateToEnd p pos TGT) TGT with
  | forward =>
    have hunits := rotateToUnits_of_forward hd
    omega
  | backward =>
    have hunits := rotateToUnits_of_backward hd
    omega

end Sys2Proof.Machine
end

section
/-! The motor's edges: the acceptance of both commands (R226, R230), an activation (R235), the end of a unit and the
completion (R236), and the destination that all of them keep (R229, R231). -/

namespace Sys2Proof.Machine

variable {s s' : State} {op : Op} {d : Dir} {units : Nat}

/-! ### Acceptance -/

theorem exec_rotateBy_of_idle (hb : s.busy = false) (cw : Bool) (A D : Nat) :
    exec (.rotateBy cw A D) s =
      .next (startMotor s .rotateBy (cwDir cw) (rotateByUnits s.params s.position cw A) D) :=
  takeCommand_started hb _

theorem exec_rotateTo_of_idle (hb : s.busy = false) (target : Int) (D : Nat) :
    exec (.rotateTo target D) s =
      .next (startMotor s .rotateTo (rotateToDir s.params s.position target)
        (rotateToUnits s.params s.position target) D) :=
  takeCommand_started hb _

/-- The latched step count is 0 only where there is no unit to drive: a step count in range fits `units_left`. -/
theorem UnitsFit.ofNat_eq_zero_iff (hu : UnitsFit s d units) (h : s.Inv) : BitVec.ofNat 16 units = 0 ↔ units = 0 := by
  have hn := hu.toNat_ofNat h
  exact ⟨fun hz => by simpa [hz] using hn.symm, fun hz => by simp [hz]⟩

/-- The registers a motor command latches, with the test for a unit read off `units_left`. -/
theorem UnitsFit.startMotor_eq (hu : UnitsFit s d units) (h : s.Inv) (op : Op) (delay : Nat) :
    startMotor s op d units delay = { s with
      busy := true, curOp := op, dir := d, unitsLeft := BitVec.ofNat 16 units
      entLeft := if BitVec.ofNat 16 units = 0 then 0 else BitVec.ofNat 4 s.params.epu
      stepDelay := BitVec.ofNat 32 delay } := by
  simp only [startMotor, hu.ofNat_eq_zero_iff h]

/-- Settles O12: the command starts with the clamped step count, and a nudge is its ROTATE_BY. -/
theorem rotateByLatchesTheClampedStepCount : Obligations.RotateByLatchesTheClampedStepCount := by
  intro s cw A D h _ _
  have hfit := rotateBy_unitsFit h.inv.pos_in_range cw A
  refine ⟨_, exec_rotateBy_of_idle h.idle cw A D, ?_, ?_, hfit.startMotor_eq h.inv .rotateBy D⟩
  · rintro rfl
    rw [← rotateByOf_one, exec_rotateByOf, exec_rotateBy_of_idle h.idle]
  · obtain ⟨hlo, hhi⟩ := h.inv.pos_in_range
    exact (congrArg Nat.cast (hfit.toNat_ofNat h.inv)).trans (rotateByUnits_eq_min hlo hhi cw A)

/-- Settles O13: the direction and the step count are those of R231. -/
theorem rotateToLatchesTheStepCount : Obligations.RotateToLatchesTheStepCount := by
  intro s TGT D h _ _ _ tc q
  have hfit := rotateTo_unitsFit h.inv.pos_in_range TGT
  have hunits := congrArg (Nat.cast (R := Int)) (hfit.toNat_ofNat h.inv)
  refine ⟨_, exec_rotateTo_of_idle h.idle TGT D, fun hgt => ?_, fun hle => ?_, hfit.startMotor_eq h.inv .rotateTo D⟩
  · have hd := rotateToDir_eq_forward_iff.mpr hgt
    exact ⟨hd, (hunits.trans (rotateToUnits_of_forward hd)).trans
      (congrArg (· - s.position) (rotateToEnd_of_forward hd))⟩
  · have hd := rotateToDir_eq_backward_iff.mpr hle
    exact ⟨hd, (hunits.trans (rotateToUnits_of_backward hd)).trans
      (congrArg (s.position - ·) (rotateToEnd_of_backward hd))⟩

/-! ### The unit procedure -/

theorem motorAdvance_of_no_units (hu : s.unitsLeft = 0) : motorAdvance s = s.complete .ok := if_pos hu

theorem motorAdvance_of_no_entries (hu : s.unitsLeft ≠ 0) (he : s.entLeft = 0) : motorAdvance s = endUnit s :=
  (if_neg hu).trans (if_pos he)

theorem motorAdvance_of_entries (hu : s.unitsLeft ≠ 0) (he : s.entLeft ≠ 0) : motorAdvance s = activate s :=
  (if_neg hu).trans (if_neg he)

/-- A motor command is in progress and the next event is its own: no wait, and nothing in flight. -/
structure State.Driving (s : State) : Prop extends s.Sequencing where
  curOp : s.curOp.isMotor
  flight : s.flight = none
  dlyCnt : s.dlyCnt = 0

/-- The engine runs in a MEASURE only (R144). -/
theorem State.Inv.engPhase_eq_off_of_motor (h : s.Inv) (hop : s.curOp.isMotor) : s.engPhase = .off :=
  not_not.mp fun hp => (isMotor_ne hop).2 (h.curOp_eq_measure hp)

/-- By the invariant a motor command outside a wait has the sequencer. -/
theorem State.Inv.driving (h : s.Inv) (hm : s.motorRunning) (hw : s.waiting = false) : s.Driving := by
  obtain ⟨hb, hop⟩ := hm
  have ⟨hload, hmeasure⟩ := isMotor_ne hop
  exact {
    busy := hb, waiting := hw, curOp := hop
    engPhase := h.engPhase_eq_off_of_motor hop
    flight := not_not.mp fun hf => (h.curOp_of_flight hf).elim hload hmeasure
    dlyCnt := h.no_count_outside_wait hw }

theorem step_driving (h : s.Driving) (hr : s.input.rst = false) : step s = .next (motorAdvance s.clockEdge) := by
  have hreq : nextRequest s.clockEdge = none := nextRequest_eq_none_iff.mpr (.inr h.curOp)
  rw [step_sequencing h.toSequencing hr]
  simp [sequenceEdge, sequenceAdvance, h.waiting, h.flight, hreq, internalAdvance_motor (s := s.clockEdge) h.curOp]

/-- The index of an activation is a row of the table, so three bits hold it (R234, R237). -/
theorem toNat_entryIndex {k : Nat} (hk : k ≤ 7) (d : Dir) :
    (entryIndex d k).toNat = (match d with | .forward => k | .backward => 7 - k) := by
  cases d <;> simp only [entryIndex, BitVec.toNat_ofNat] <;> omega

/-- Settles O43: with an entry left the edge is an activation, at most the eighth of its unit. -/
theorem activationDrivesTheNextEntry : Obligations.ActivationDrivesTheNextEntry := by
  intro s h hm hw he hr
  have hu : s.unitsLeft ≠ 0 := h.entries_of_a_unit he
  obtain ⟨-, -, -, hepu⟩ := h.params_legal
  refine ⟨_, toNat_entryIndex (k := s.params.epu - s.entLeft.toNat) ?_ s.dir, ?_⟩
  · have hpos : 0 < s.entLeft.toNat := by bv_omega
    omega
  · rw [step_driving (h.driving hm hw) hr, motorAdvance_of_entries (s := s.clockEdge) hu he]
    rfl

/-- Settles O44: with no entry left the edge is the end of a unit, or the completion. -/
theorem unitEndMovesPositionByOne : Obligations.UnitEndMovesPositionByOne := by
  intro s h hm hw he hr
  have hstep := step_driving (h.driving hm hw) hr
  refine ⟨fun hu => ⟨endUnit s.clockEdge, ?_, ?_, ?_, rfl⟩, fun hu => ?_⟩
  · rw [hstep, motorAdvance_of_no_entries (s := s.clockEdge) hu he]
  · rcases (endUnit_moves h.clockEdge hu).2 with ⟨hd, hpos, -⟩ | ⟨hd, hpos, -⟩
    · rw [show s.dir = .forward from hd]
      exact hpos
    · rw [show s.dir = .backward from hd]
      exact hpos
  · have hunit : (s.unitsLeft - 1).toNat + 1 = s.unitsLeft.toNat := by bv_omega
    exact hunit
  · rw [hstep, motorAdvance_of_no_units (s := s.clockEdge) hu]
    rfl

/-! ### The destination -/

/-- Every event of a motor command keeps where it is going, or is its completion there. -/
theorem SequencerStep.motor_cases (hs : SequencerStep s s') (h : s.Inv) (hm : s.motorRunning) :
    (s'.motorRunning ∧ s'.destination = s.destination ∧ s'.dir = s.dir) ∨
    (s.unitsLeft = 0 ∧ s' = s.complete .ok) := by
  have ⟨hload, hmeasure⟩ := isMotor_ne hm.2
  cases hs with
  | loadFailed _ hop | calEnd _ _ hop => exact absurd hop hload
  | measureFailed _ hop => exact absurd hop hmeasure
  | motorDone _ _ _ hu => exact .inr ⟨hu, rfl⟩
  | unitEnd _ _ _ hu => exact .inl ⟨hm, (endUnit_moves h hu).1, rfl⟩
  | _ => exact .inl ⟨hm, rfl, rfl⟩

/-- Settles O45: the sequencer has every edge of a motor command, and without units left it is at its destination. -/
theorem motorReachesItsDestination : Obligations.MotorReachesItsDestination := by
  intro s s' h hm hr hs
  have hseq : SequencerStep s.clockEdge s' := by
    rw [step_busy hr hm.1, busyEdge_off (s := s.clockEdge) (h.engPhase_eq_off_of_motor hm.2)] at hs
    cases hs
    exact sequenceEdge_sequencerStep h.clockEdge s.input
  rcases hseq.motor_cases h.clockEdge hm with hgoes | ⟨hu, rfl⟩
  · exact .inl hgoes
  · exact .inr ⟨rfl, rfl, (destination_of_no_units (s := s) hu).symm, rfl⟩

end Sys2Proof.Machine
end

section
/-! The whole motor commands (R226, R230, R234 to R238): an activation with its wait, the entries of a unit, the units
of a command, and the command from its word to its completion. -/

namespace Sys2Proof.Machine

variable {s : State} {op : Op} {d : Dir} {units delay : Nat} {i : Instr} {w : CommandWord} {rest : List PortIn}

/-! ### An activation and its wait -/

theorem State.Driving.seeingNext (h : s.Driving) (l : List PortIn) : (s.seeingNext l).Driving :=
  { h with }

/-- `s` after the activation of an entry and its wait (R235). -/
def State.entryDriven (s : State) : State :=
  { activate s with waiting := false, dlyCnt := 0, entLeft := s.entLeft - 1 }

theorem State.Driving.entryDriven (h : s.Driving) : s.entryDriven.Driving :=
  { h with waiting := rfl, dlyCnt := rfl }

theorem passes_entry (h : s.Driving) (hu : s.unitsLeft ≠ 0) (he : s.entLeft ≠ 0) :
    Passes (.quiet :: waitOut s.stepDelay.toNat) s s.entryDriven := by
  have hactivate : Passes [.quiet] s (activate s) := passes_one fun rest => by
    rw [step_driving (h.seeingNext _) rfl]
    exact congrArg _ (motorAdvance_of_entries (s := s.seeingNext rest) hu he)
  have hend : { activate s with dlyCnt := 0 }.endWait = s.entryDriven := endWait_motor h.curOp
  exact hactivate.trans (hend ▸ passes_waitOut (s := activate s) h.busy h.engPhase rfl rfl)

/-! ### A unit -/

/-- `s` after the activations of a unit: the last entry's row is on the coils (R234, R237). -/
def State.entriesDriven (s : State) : State :=
  let last := entryIndex s.dir (s.params.epu - 1)
  { s with entLeft := 0, coil := coilRow s.params last, seqIdx := last }

theorem entriesDriven_entryDriven (h : s.Driving) : s.entryDriven.entriesDriven = s.entriesDriven := by
  simp [State.entriesDriven, State.entryDriven, activate, h.waiting, h.dlyCnt]

/-- The last activation of a unit is number EPU − 1 (R234). -/
theorem entryDriven_of_last (h : s.Driving) (he : s.entLeft = 1) : s.entryDriven = s.entriesDriven := by
  simp [State.entriesDriven, State.entryDriven, activate, he, h.waiting, h.dlyCnt]

theorem ne_zero_of_toNat_eq_succ {b n : Nat} {x : BitVec b} (h : x.toNat = n + 1) : x ≠ 0 := by
  rintro rfl
  simp at h

theorem passes_entries {n : Nat} (h : s.Driving) (hu : s.unitsLeft ≠ 0) (hn : s.entLeft.toNat = n + 1) :
    Passes (List.replicate (n + 1) (.quiet :: waitOut s.stepDelay.toNat)).flatten s s.entriesDriven := by
  induction n generalizing s with
  | zero =>
    have hlast : s.entLeft = 1 := BitVec.eq_of_toNat_eq hn
    have hentry := passes_entry h hu (ne_zero_of_toNat_eq_succ hn)
    simpa [entryDriven_of_last h hlast] using hentry
  | succ n ih =>
    have hn' : (s.entLeft - 1).toNat = n + 1 := by bv_omega
    have hrest := ih h.entryDriven hu hn'
    rw [entriesDriven_entryDriven h] at hrest
    exact (passes_entry h hu (ne_zero_of_toNat_eq_succ hn)).trans hrest

/-- A unit: its entries, and the edge that moves `pos` (R236). -/
theorem passes_unit {n : Nat} (h : s.Driving) (hu : s.unitsLeft ≠ 0) (hn : s.entLeft.toNat = n + 1) :
    Passes (unitInputs (n + 1) s.stepDelay.toNat) s (endUnit s.entriesDriven) :=
  (passes_entries h hu hn).trans <| passes_one fun rest => by
    rw [step_driving (s := s.entriesDriven.seeingNext _) { h with } rfl]
    exact congrArg _ (motorAdvance_of_no_entries (s := s.entriesDriven.seeingNext rest) hu rfl)

/-! ### The units of a command -/

/-- The position `units` units away in direction `d` (R225). -/
def movedBy (d : Dir) (pos : BitVec 16) (units : Nat) : BitVec 16 :=
  match d with
  | .forward => pos + BitVec.ofNat 16 units
  | .backward => pos - BitVec.ofNat 16 units

theorem movedBy_zero (d : Dir) (pos : BitVec 16) : movedBy d pos 0 = pos := by
  cases d <;> simp [movedBy]

/-- The end of a unit is the first of the units still to come. -/
theorem movedBy_endUnit (s : State) (n : Nat) : movedBy s.dir (endUnit s).pos n = movedBy s.dir s.pos (n + 1) := by
  cases hd : s.dir <;> simp only [endUnit, hd, movedBy] <;> bv_omega

/-- `s` after `units` units, the last ones of its command (R234 to R236). -/
def State.unitsDriven (s : State) (units : Nat) : State :=
  let last := entryIndex s.dir (s.params.epu - 1)
  { s with
    unitsLeft := 0, entLeft := 0
    pos := movedBy s.dir s.pos units
    coil := if units = 0 then s.coil else coilRow s.params last
    seqIdx := if units = 0 then s.seqIdx else last }

theorem unitsDriven_zero (hu : s.unitsLeft = 0) (he : s.entLeft = 0) : s.unitsDriven 0 = s := by
  simp [State.unitsDriven, movedBy_zero, ← hu, ← he]

theorem unitsDriven_endUnit (s : State) (n : Nat) :
    (endUnit s.entriesDriven).unitsDriven n = s.unitsDriven (n + 1) := by
  simpa [State.unitsDriven, endUnit, State.entriesDriven] using movedBy_endUnit s.entriesDriven n

/-- The entries of a motor command between two units: EPU while one is left (log 11). -/
def State.UnitDue (s : State) : Prop := s.entLeft = if s.unitsLeft = 0 then 0 else BitVec.ofNat 4 s.params.epu

theorem unitDue_startMotor (h : s.Inv) (hfit : UnitsFit s d units) (op : Op) (delay : Nat) :
    (startMotor s op d units delay).UnitDue := by
  rw [hfit.startMotor_eq h]
  rfl

theorem passes_units {n : Nat} (h : s.Driving) (hwf : s.params.wf) (he : s.UnitDue) (hn : s.unitsLeft.toNat = n) :
    Passes (List.replicate n (unitInputs s.params.epu s.stepDelay.toNat)).flatten s (s.unitsDriven n) := by
  induction n generalizing s with
  | zero =>
    have hu : s.unitsLeft = 0 := BitVec.eq_of_toNat_eq hn
    rw [unitsDriven_zero hu (he.trans (if_pos hu))]
    exact .nil s
  | succ n ih =>
    have hu : s.unitsLeft ≠ 0 := ne_zero_of_toNat_eq_succ hn
    have hn' : (s.unitsLeft - 1).toNat = n := by bv_omega
    obtain ⟨m, hm⟩ : ∃ m, s.params.epu = m + 1 := Nat.exists_eq_add_one.mpr hwf.2.2.1
    have hentries : s.entLeft.toNat = m + 1 := by rw [he.trans (if_neg hu), toNat_ofNat_epu hwf, hm]
    have hunit := passes_unit h hu hentries
    rw [← hm] at hunit
    have hrest := ih (s := endUnit s.entriesDriven) { h with } hwf rfl hn'
    rw [unitsDriven_endUnit] at hrest
    exact hunit.trans hrest

/-! ### The whole command -/

/-- The completion leaves a block that was at rest as R238 says: only `pos`, the coils and what the command latched
differ. -/
theorem complete_unitsDriven (h : s.AtRest) (op : Op) (d : Dir) (units delay : Nat) (rest : List PortIn) :
    (((startMotor s op d units delay).unitsDriven units).seeingNext rest).complete .ok =
      motorFinal s op d units delay rest := by
  cases d <;>
    simp [State.complete, State.seeingNext, State.unitsDriven, startMotor, motorFinal, movedBy, h.busy, h.waiting,
      h.unitsLeft, h.entLeft]

theorem driving_startMotor (h : s.AtRest) (hop : op.isMotor) (d : Dir) (units delay : Nat) :
    (startMotor s op d units delay).Driving :=
  { busy := rfl, engPhase := h.engPhase, waiting := h.waiting, curOp := hop, flight := h.flight, dlyCnt := h.dlyCnt }

/-- The edge that takes the word of a motor command, `hexec` its meaning (R90, R91). -/
theorem step_startMotor (h : s.Ready) (hin : s.inputs = .offer w :: rest) (hw : decode (.command w) = .ok i)
    (hexec : exec i s.clockEdge = .next (startMotor s.clockEdge op d units delay)) :
    step s = .next ((startMotor s op d units delay).seeingNext rest) := by
  have hi : s.input = .offer w := input_of_inputs hin
  rw [step_idle (hi ▸ rfl) h.idle, hi, idleEdge_legal (inp := .offer w) rfl hw, hexec, clockEdge_of_inputs hin]
  rfl

theorem passes_startMotor (h : s.Ready) (hop : op.isMotor) (hfit : UnitsFit s d units) (hD : delay < 2 ^ 32) :
    Passes (List.replicate units (unitInputs s.params.epu delay)).flatten (startMotor s op d units delay)
      ((startMotor s op d units delay).unitsDriven units) := by
  have hdelay : (startMotor s op d units delay).stepDelay.toNat = delay :=
    toNat_ofNat_of_delayFits (decide_eq_true hD)
  have hunits := passes_units (driving_startMotor h.atRest hop d units delay) h.inv.params_legal
    (unitDue_startMotor h.inv hfit op delay) (hfit.toNat_ofNat h.inv)
  rwa [hdelay] at hunits

theorem step_motorDone (h : s.AtRest) (hop : op.isMotor) (d : Dir) (units delay : Nat) (rest : List PortIn) :
    step (((startMotor s op d units delay).unitsDriven units).seeingNext (.quiet :: rest)) =
      .next (motorFinal s op d units delay rest) := by
  have hdriving : ((startMotor s op d units delay).unitsDriven units).Driving :=
    { driving_startMotor h hop d units delay with }
  rw [step_driving (hdriving.seeingNext _) rfl, motorAdvance_of_no_units rfl, ← complete_unitsDriven h]
  rfl

/-- A motor command from its word to its completion, with the ticks of each wait. -/
theorem runsTo_motorFinal (h : s.Ready) (hop : op.isMotor) (hfit : UnitsFit s d units) (hD : delay < 2 ^ 32)
    (hin : s.inputs = .offer w :: motorInputs units s.params.epu delay ++ rest)
    (hw : decode (.command w) = .ok i) (hexec : exec i s.clockEdge = .next (startMotor s.clockEdge op d units delay)) :
    RunsTo (1 + (motorInputs units s.params.epu delay).length) s (motorFinal s op d units delay rest) := by
  have htake := step_startMotor h hin hw hexec
  have hunits := passes_startMotor h hop hfit hD (.quiet :: rest)
  have hdone := step_motorDone h.atRest hop d units delay rest
  rw [List.append_eq, motorInputs, List.append_assoc] at htake
  rw [motorInputs, List.length_append]
  exact (runsTo_one htake).trans (hunits.trans (runsTo_one hdone))

/-- Settles O46: the word decodes to the ROTATE_BY, or to the nudge that means the same, and its command runs to its
end. -/
theorem rotateByRunsToCompletion : Obligations.RotateByRunsToCompletion := by
  intro s cw A D w rest h hA hD hw S hin
  have hdec : decode (.command w) = .ok (rotateByOf cw A D) :=
    hw ▸ decode_encode_rotateBy (Bool.and_eq_true_iff.mpr ⟨decide_eq_true hA, decide_eq_true hD⟩)
  refine runsTo_motorFinal h (.inl rfl) (rotateBy_unitsFit h.inv.pos_in_range cw A) hD hin hdec ?_
  rw [exec_rotateByOf]
  exact exec_rotateBy_of_idle (s := s.clockEdge) h.idle cw A D

/-- The position `units` units away from `pos` in direction `d`, over the integers (R231, R236). -/
def positionAfter (d : Dir) (pos : Int) (units : Nat) : Int :=
  match d with
  | .forward => pos + units
  | .backward => pos - units

theorem movedBy_eq_ofInt (d : Dir) (pos : BitVec 16) (n : Nat) :
    movedBy d pos n = BitVec.ofInt 16 (positionAfter d pos.toInt n) := by
  cases d <;>
    simp [movedBy, positionAfter, Int.sub_eq_add_neg, BitVec.sub_eq_add_neg, BitVec.ofInt_add, BitVec.ofInt_neg]

/-- A motor command in range does not wrap `pos` (R34, R236). -/
theorem UnitsFit.toInt_movedBy (hu : UnitsFit s d units) (h : s.Inv) :
    (movedBy d s.pos units).toInt = positionAfter d s.position units := by
  have hhalf := halfTurn_le h.params_legal
  have ⟨hlo, hhi⟩ := h.pos_in_range
  have hfits : -32768 ≤ positionAfter d s.position units ∧ positionAfter d s.position units ≤ 32767 := by
    cases d <;> simp only [UnitsFit, positionAfter] at * <;> omega
  rw [movedBy_eq_ofInt]
  exact toInt_ofInt_of_targetFits (decide_eq_true hfits)

theorem position_motorFinal (s : State) (op : Op) (d : Dir) (units delay : Nat) (rest : List PortIn) :
    (motorFinal s op d units delay rest).position = (movedBy d s.pos units).toInt := by
  cases d <;> rfl

/-- The step count of ROTATE_TO leads to its end position (R231). -/
theorem positionAfter_rotateToUnits (p : Params) (pos target : Int) :
    positionAfter (rotateToDir p pos target) pos (rotateToUnits p pos target) = rotateToEnd p pos target := by
  cases hd : rotateToDir p pos target with
  | forward =>
    have hunits := rotateToUnits_of_forward hd
    simp only [positionAfter]
    omega
  | backward =>
    have hunits := rotateToUnits_of_backward hd
    simp only [positionAfter]
    omega

/-- Settles O47: the command runs to its end, and the distance it has moved is the one to R231's end position. -/
theorem rotateToRunsToCompletion : Obligations.RotateToRunsToCompletion := by
  intro s TGT D w rest h hlo hhi hD hw S d hin
  have hfit := rotateTo_unitsFit h.inv.pos_in_range TGT
  have hdec : decode (.command w) = .ok (.rotateTo TGT D) :=
    hw ▸ decode_encode_rotateTo (Bool.and_eq_true_iff.mpr ⟨decide_eq_true ⟨hlo, hhi⟩, decide_eq_true hD⟩)
  exact ⟨runsTo_motorFinal h (.inr rfl) hfit hD hin hdec (exec_rotateTo_of_idle (s := s.clockEdge) h.idle TGT D),
    (position_motorFinal ..).trans ((hfit.toInt_movedBy h.inv).trans (positionAfter_rotateToUnits ..))⟩

end Sys2Proof.Machine
end

section
/-! Waits and hangs (R234, R274, R280): what an edge inside a wait does, and that a block whose environment stays silent
stays where it is. -/

namespace Sys2Proof.Machine

variable {s : State}

/-! ### Inside a wait -/

theorem waitEdge_of_tick (hz : s.dlyCnt ≠ 0) : s.waitEdge true = { s with dlyCnt := s.dlyCnt - 1 } := if_neg hz

theorem waitEdge_of_no_tick (hz : s.dlyCnt ≠ 0) : s.waitEdge false = s := if_neg hz

theorem waitEdge_of_zero (hz : s.dlyCnt = 0) (tick : Bool) : s.waitEdge tick = s.endWait := if_pos hz

/-- By the invariant the timer has every edge inside a wait: the engine is off (R17, R144). -/
theorem step_waiting_of_inv (h : s.Inv) (hw : s.waiting = true) (hr : s.input.rst = false) :
    step s = .next (s.clockEdge.waitEdge s.input.tickUs) := by
  have hoff : s.engPhase = .off := not_not.mp fun hp => nomatch hw.symm.trans (h.engine_only_in_ready hp).2.2
  exact step_waiting (h.wait_has_owner hw).1 hoff hw hr

/-- A wait outside MEASURE is that of an activation (R235). -/
theorem State.Inv.isMotor_of_waiting (h : s.Inv) (hw : s.waiting = true) (hop : s.curOp ≠ .measure) :
    s.curOp.isMotor := by
  obtain ⟨-, -, ⟨hmeasure, -⟩ | ⟨⟨-, hmotor⟩, -⟩⟩ := h.wait_has_owner hw
  · exact absurd hmeasure hop
  · exact hmotor

/-- Settles O48: the timer has the edge, and at 0 the wait ends for the command that waits. -/
theorem waitCountsTicks : Obligations.WaitCountsTicks := by
  intro s h hw hr
  have hstep := step_waiting_of_inv h hw hr
  refine ⟨fun hz htick => ⟨{ s.clockEdge with dlyCnt := s.dlyCnt - 1 }, ?_, ?_, rfl⟩, fun hz htick => ?_,
    fun hz hop => ?_, fun hz hop => ?_⟩
  · rw [hstep, htick, waitEdge_of_tick (s := s.clockEdge) hz]
    rfl
  · change (s.dlyCnt - 1).toNat + 1 = s.dlyCnt.toNat
    bv_omega
  · rw [hstep, htick, waitEdge_of_no_tick (s := s.clockEdge) hz]
  · rw [hstep, waitEdge_of_zero (s := s.clockEdge) hz, endWait_measure (s := s.clockEdge) hop]
  · rw [hstep, waitEdge_of_zero (s := s.clockEdge) hz,
      endWait_motor (s := s.clockEdge) (h.isMotor_of_waiting hw hop)]
    rfl

/-! ### A silent environment -/

theorem runsTo_self (h : step s = .next s) (n : Nat) : RunsTo n s s := by
  induction n with
  | zero => exact runsTo_zero s
  | succ n ih => exact runsTo_succ_iff.mpr ⟨s, h, ih⟩

/-- Without inputs to come every input is low (log 2). -/
theorem input_of_no_inputs (hin : s.inputs = []) : s.input = .quiet := by simp [State.input, hin]

theorem State.Inv.done_eq_false (h : s.Inv) (hb : s.busy = true) : s.done = false :=
  Bool.eq_false_of_not_eq_true fun hd => nomatch hb.symm.trans (h.done_when_idle hd)

/-- While busy, `done` is low: without inputs to come, using up the input of an edge changes nothing. -/
theorem State.Inv.clockEdge_eq_self (h : s.Inv) (hb : s.busy = true) (hin : s.inputs = []) : s.clockEdge = s := by
  rw [State.clockEdge, hin, List.tail_nil, ← hin, ← h.done_eq_false hb]

theorem step_unanswered (h : s.Inv) (hf : s.flight ≠ none) (hin : s.inputs = []) : step s = .next s := by
  obtain ⟨t, ht⟩ := Option.ne_none_iff_exists'.mp hf
  have hi := input_of_no_inputs hin
  rw [step_of_flight h hf (hi ▸ rfl), hi, h.clockEdge_eq_self (h.flight_is_due t ht).1 hin]
  rfl

theorem step_no_tick (h : s.Inv) (hw : s.waiting = true) (hz : s.dlyCnt ≠ 0) (hin : s.inputs = []) :
    step s = .next s := by
  have hi := input_of_no_inputs hin
  rw [step_waiting_of_inv h hw (hi ▸ rfl), hi, h.clockEdge_eq_self (h.wait_has_owner hw).1 hin]
  exact congrArg _ (waitEdge_of_no_tick hz)

/-! ### A status bit that stays set -/

/-- Between two status reads a MEASURE of the invariant is the `inMeasure` state of the poll loop. -/
theorem State.Inv.eq_inMeasure_polling (h : s.Inv) (hm : s.mstate = .polling) (hf : s.flight = none)
    (hw : s.waiting = false) (l : List PortIn) :
    (s.inMeasure .polling s.rdIdx).seeingNext l = { s with inputs := l } := by
  obtain ⟨hb, hop⟩ := h.mstate_only_in_measure (by simp [hm])
  have hoff := h.engPhase_eq_off (by simp [hm])
  simp [State.inMeasure, State.seeingNext, ← hb, ← hop, ← hm, ← hoff, ← hf, hw, ← h.no_count_outside_wait hw,
    ← h.done_eq_false hb]

/-- Settles O49: without an answer or a tick the step leads from the state to itself, and each status read with bit 3
set leads with its wait back to the next one. -/
theorem hangsAreKept : Obligations.HangsAreKept := by
  refine ⟨fun n s h hf hin => runsTo_self (step_unanswered h hf hin) n,
    fun n s h hw hz hin => runsTo_self (step_no_tick h hw hz hin) n, fun s polls rest h hm hf hw hpolls hin => ?_⟩
  have hrun := passes_polls (s := s) (g := s.rdIdx) polls hpolls rest
  rwa [h.eq_inMeasure_polling hm hf hw, h.eq_inMeasure_polling hm hf hw, ← hin] at hrun

end Sys2Proof.Machine
end

section
/-! The results change only inside the engine (R25, R146, R173, R303), from every state: the port of the idle block, the
sequencer and the completion of MEASURE keep the triple, `res_valid` and `t_fine`; of the micro-steps only E22 writes
the former and only E2 the latter. -/

namespace Sys2Proof.Machine

variable {s s' : State}

/-- What the commit writes (R173). -/
structure Triple where
  tRes : BitVec 32
  pRes : BitVec 32
  hRes : BitVec 32
  resValid : Bool

/-- The triple of a state with its flag (R24, R35). -/
def State.triple (s : State) : Triple := ⟨s.tRes, s.pRes, s.hRes, s.resValid⟩

/-- What a cycle of the engine leaves behind: the triple, and `t_fine` (R25, R173). -/
def State.results (s : State) : Triple × BitVec 32 := (s.triple, s.tFine)

theorem triple_eq_iff :
    s'.triple = s.triple ↔
      s'.tRes = s.tRes ∧ s'.pRes = s.pRes ∧ s'.hRes = s.hRes ∧ s'.resValid = s.resValid := by
  simp [State.triple]

/-! ### The commands at the port -/

theorem takeCommand_results {c : Option CompletionCode} {w : State} (h : takeCommand s c w = .next s')
    (hw : w.results = s.results) : s'.results = s.results := by
  rcases takeCommand_cases s c w with ⟨-, he⟩ | ⟨_, -, -, he⟩ | ⟨-, -, he⟩ <;> cases he.symm.trans h
  · rfl
  · rfl
  · exact hw

/-- A command is taken or refused with the results as they are. -/
theorem exec_command_results {i : Instr} (hi : i.isCommand = true) (h : exec i s = .next s') :
    s'.results = s.results := by
  cases i with
  | loadCal | measure => exact takeCommand_results h rfl
  | rotateBy | rotateTo | nudgeCw | nudgeCcw => exact takeCommand_results (c := none) h rfl
  | _ => cases hi

/-! ### The engine -/

/-- Of the engine's events only the commit writes the triple (R173). -/
theorem EngineStep.triple_eq_or (hs : EngineStep s s') :
    s'.triple = s.triple ∨ (s.engPhase = .running ∧ s.engStep = 22) := by
  cases hs with
  | commit hp hk => exact .inr ⟨hp, hk⟩
  | work | finish => exact .inl rfl

/-- Of the micro-steps only E2 writes `t_fine` (R152). -/
theorem exec_tFine {i : Instr} (hi : i.isCommand = false) (h2 : i ≠ .e2) (h : exec i s = .next s') :
    s'.tFine = s.tFine := by
  cases i with
  | loadCal | measure | rotateBy | rotateTo | nudgeCw | nudgeCcw => cases hi
  | e2 => exact absurd rfl h2
  | e10 => rcases execE10_cases s with ⟨-, he⟩ | ⟨-, he⟩ <;> cases he.symm.trans h <;> rfl
  | _ => cases h; rfl

/-- Only the number 2 names E2 (R103). -/
theorem eq_two_of_decode_e2 {k : MicroStepCode} (h : decode (.microStep k) = .ok .e2) : k = 2 :=
  (Code.microStep.inj (encode_of_decode_microStep h)).symm

/-! ### The sequencer -/

theorem raiseBusError_results (s : State) : s.raiseBusError.results = s.results := by
  unfold State.raiseBusError
  cases s.curOp <;> rfl

theorem calAnswered_results (s : State) (r : BitVec 24) : (calAnswered s r).results = s.results := by
  rcases calAnswered_cases s r with ⟨-, he⟩ | ⟨-, he⟩ <;> rw [he] <;> rfl

/-- A raw read writes a raw value and no result (R199 to R201). -/
theorem rawAnswered_results (s : State) (r : BitVec 24) : (rawAnswered s r).results = s.results := by
  unfold rawAnswered
  cases s.rdIdx <;> rfl

theorem measureAnswered_results (s : State) (r : BitVec 24) : (measureAnswered s r).results = s.results := by
  unfold measureAnswered
  cases s.mstate with
  | idle | triggered => rfl
  | polling => rcases statusAnswered_cases s r with ⟨-, he⟩ | ⟨-, he⟩ <;> simp only [he] <;> rfl
  | ready => exact rawAnswered_results s r

theorem receive_results (s : State) (failed : Bool) (r : BitVec 24) : (receive s failed r).results = s.results := by
  cases failed with
  | true => exact raiseBusError_results s.endTransaction
  | false =>
    cases hop : s.curOp with
    | loadCal => rw [receive_loadCal hop]; exact calAnswered_results s.endTransaction r
    | measure => rw [receive_measure hop]; exact measureAnswered_results s.endTransaction r
    | rotateBy | rotateTo => simp only [receive, hop]; rfl

theorem waitEdge_results (s : State) (tick : Bool) : (s.waitEdge tick).results = s.results := by
  rcases waitEdge_cases s tick with ⟨-, he⟩ | ⟨-, -, he⟩ | ⟨-, -, he⟩ <;> rw [he]
  · unfold State.endWait
    cases s.curOp <;> rfl
  · rfl

theorem motorAdvance_results (s : State) : (motorAdvance s).results = s.results := by
  rcases motorAdvance_cases s with ⟨-, he⟩ | ⟨-, -, he⟩ | ⟨-, -, he⟩ <;> rw [he] <;> rfl

theorem internalAdvance_results (s : State) : (internalAdvance s).results = s.results := by
  unfold internalAdvance
  cases s.curOp with
  | loadCal | measure => rfl
  | rotateBy | rotateTo => exact motorAdvance_results s

/-- No edge of the sequencer writes a result. -/
theorem sequenceEdge_results (s : State) (inp : PortIn) : (sequenceEdge s inp).results = s.results := by
  rcases sequenceEdge_cases s inp with ⟨-, he⟩ | ⟨-, -, -, he⟩ | ⟨-, -, -, he⟩ | ⟨-, -, he⟩ <;> rw [he]
  · exact waitEdge_results s _
  · exact receive_results s _ _
  · rcases sequenceAdvance_cases s with ⟨_, -, ha⟩ | ⟨-, ha⟩ <;> rw [ha]
    · rfl
    · exact internalAdvance_results s

/-! ### The step -/

/-- A step without reset keeps the results, unless the engine runs and the step is its micro-step. -/
theorem step_results_or (hr : s.input.rst = false) (hs : step s = .next s') :
    s'.results = s.results ∨
    (s.busy = true ∧ s.engPhase = .running ∧
      ∃ i, decode (.microStep s.engStep) = .ok i ∧ exec i s.clockEdge = .next s') := by
  rcases step_cases s with ⟨hr', -⟩ | ⟨-, -, -, he⟩ | ⟨-, -, -, _, -, he⟩ | ⟨-, -, -, i, hd, he⟩ |
    ⟨-, hb, hp, i, hd, he⟩ | ⟨-, -, -, _, -, he⟩ | ⟨-, -, -, he⟩ | ⟨-, -, -, he⟩
  · exact nomatch hr.symm.trans hr'
  · cases he.symm.trans hs; exact .inl rfl
  · cases he.symm.trans hs; exact .inl rfl
  · exact .inl (exec_command_results (s := s.clockEdge) (decodeCommand_isCommand hd) (he.symm.trans hs))
  · exact .inr ⟨hb, hp, i, hd, he.symm.trans hs⟩
  · cases he.symm.trans hs
  · cases he.symm.trans hs; exact .inl rfl
  · cases he.symm.trans hs; exact .inl (sequenceEdge_results s.clockEdge s.input)

/-- Settles O56: only a micro-step writes a result, and there only the commit the triple and only E2 `t_fine`. -/
theorem resultsChangeOnlyAtCommit : Obligations.ResultsChangeOnlyAtCommit := by
  intro s s' hr hs
  rcases step_results_or hr hs with hk | ⟨hb, hp, i, hd, hx⟩
  · obtain ⟨htriple, hfine⟩ := Prod.mk.inj hk
    exact ⟨fun _ => triple_eq_iff.mp htriple, fun _ => hfine⟩
  · refine ⟨fun h22 => ?_, fun h2 => ?_⟩
    · rcases (exec_engineStep (s := s.clockEdge) hp hd hx).triple_eq_or with hk | ⟨-, hcommit⟩
      · exact triple_eq_iff.mp hk
      · exact absurd ⟨hb, hp, hcommit⟩ h22
    · have hne : i ≠ .e2 := by
        rintro rfl
        exact h2 ⟨hb, hp, eq_two_of_decode_e2 hd⟩
      exact exec_tFine (s := s.clockEdge) (isCommand_of_decode_microStep hd) hne hx

end Sys2Proof.Machine
end

section
/-! The text front-end (R109 to R113): trimming, the grammar of a signed integer, and the command of each payload. -/

namespace Sys2Proof.Machine

variable {cs lead sign digits trail body mid text : List Char} {c : Char} {n : Nat}

/-! ### Characters -/

theorem isSpace_of_isDigit (h : isDigit c = true) : isSpace c = false := by
  simp only [isDigit, isSpace, Bool.and_eq_true, Bool.or_eq_false_iff, Bool.and_eq_false_iff, decide_eq_true_eq,
    decide_eq_false_iff_not, beq_eq_false_iff_ne] at *
  omega

/-- Case folding moves letters only. -/
theorem foldCase_of_isDigit (h : isDigit c = true) : foldCase c = c := by
  simp only [isDigit, Bool.and_eq_true, decide_eq_true_eq] at h
  exact if_neg (by omega)

/-- A payload with a digit in it is no text without digits, whatever its cases. -/
theorem map_foldCase_ne_of_isDigit (hmem : c ∈ cs) (hd : isDigit c = true) (ht : text.any isDigit = false) :
    cs.map foldCase ≠ text := by
  rintro rfl
  have hfold := List.any_eq_false.mp ht _ (List.mem_map_of_mem hmem)
  rw [foldCase_of_isDigit hd] at hfold
  exact hfold hd

/-! ### White space around a payload -/

/-- What `trim` cuts off is white space. -/
theorem exists_eq_append_trim (cs : List Char) :
    ∃ lead trail, cs = lead ++ trim cs ++ trail ∧ lead.all isSpace = true ∧ trail.all isSpace = true := by
  refine ⟨cs.takeWhile isSpace, (cs.dropWhile isSpace).rtakeWhile isSpace, ?_,
    List.all_eq_true.mpr fun _ => List.mem_takeWhile_imp, List.all_eq_true.mpr fun _ => List.mem_rtakeWhile_imp⟩
  calc cs
      _ = cs.takeWhile isSpace ++ cs.dropWhile isSpace := List.takeWhile_append_dropWhile.symm
      _ = cs.takeWhile isSpace ++ (trim cs ++ (cs.dropWhile isSpace).rtakeWhile isSpace) :=
        congrArg _ List.rdropWhile_append_rtakeWhile.symm
      _ = _ := (List.append_assoc ..).symm

/-- A text without white space stops the cut at its first character. -/
theorem dropWhile_isSpace_append (hlead : ∀ x ∈ lead, isSpace x = true) (hmid : ∀ x ∈ mid, isSpace x = false)
    (hne : mid ≠ []) (trail : List Char) : (lead ++ (mid ++ trail)).dropWhile isSpace = mid ++ trail := by
  rw [List.dropWhile_append_of_pos hlead]
  obtain ⟨x, xs, rfl⟩ := List.exists_cons_of_ne_nil hne
  exact List.dropWhile_cons_of_neg (by simp [hmid x])

/-- `trim` leaves just the text between the white space. -/
theorem trim_append (hlead : lead.all isSpace = true) (htrail : trail.all isSpace = true)
    (hmid : ∀ x ∈ mid, isSpace x = false) (hne : mid ≠ []) : trim (lead ++ mid ++ trail) = mid := by
  rw [List.all_eq_true] at hlead htrail
  have hback := dropWhile_isSpace_append (lead := trail.reverse) (mid := mid.reverse) (by simpa using htrail)
    (by simpa using hmid) (by simpa using hne) []
  rw [trim, List.append_assoc, dropWhile_isSpace_append hlead hmid hne, List.reverse_append,
    ← List.append_nil mid.reverse, hback, List.append_nil, List.reverse_reverse]

/-! ### Digits -/

/-- Digits read in base ten. -/
def decimal (digits : List Char) : Nat := digits.foldl (fun n c => n * 10 + (c.toNat - 48)) 0

/-- Only one or more digits have a value. -/
theorem digitsValue_eq_some_iff :
    digitsValue cs = some n ↔ cs ≠ [] ∧ cs.all isDigit = true ∧ decimal cs = n := by
  unfold digitsValue
  split_ifs with hnil hall
  · simp [List.isEmpty_iff.mp hnil]
  · simp only [Option.some_inj, hall, true_and, decimal]
    exact (and_iff_right (mt List.isEmpty_iff.mpr hnil)).symm
  · simp [hall]

/-! ### The grammar of R111 -/

/-- A sign of R111, or none. -/
def IsSign (sign : List Char) : Prop := sign = [] ∨ sign = ['+'] ∨ sign = ['-']

/-- The value of a number under its sign. -/
def signed (sign : List Char) (n : Nat) : Int := if sign = ['-'] then -n else n

theorem IsSign.isSpace (h : IsSign sign) : ∀ x ∈ sign, isSpace x = false := by
  rcases h with rfl | rfl | rfl <;> simp [Machine.isSpace]

/-- The parts of a signed decimal integer with white space around it (R111). -/
structure IntegerText (lead sign digits trail : List Char) : Prop where
  lead_isSpace : lead.all isSpace = true
  trail_isSpace : trail.all isSpace = true
  isSign : IsSign sign
  digits_ne_nil : digits ≠ []
  digits_isDigit : digits.all isDigit = true

/-- The grammar as the statement writes it. -/
theorem integerText_iff :
    IntegerText lead sign digits trail ↔
      lead.all isSpace = true ∧ trail.all isSpace = true ∧ (sign = [] ∨ sign = ['+'] ∨ sign = ['-']) ∧
        digits ≠ [] ∧ digits.all isDigit = true :=
  ⟨fun ⟨hl, ht, hs, hne, hd⟩ => ⟨hl, ht, hs, hne, hd⟩, fun ⟨hl, ht, hs, hne, hd⟩ => ⟨hl, ht, hs, hne, hd⟩⟩

theorem IntegerText.trim_eq (h : IntegerText lead sign digits trail) :
    trim (lead ++ sign ++ digits ++ trail) = sign ++ digits := by
  rw [List.append_assoc lead]
  refine trim_append h.lead_isSpace h.trail_isSpace (fun x hx => ?_) (by simp [h.digits_ne_nil])
  rcases List.mem_append.mp hx with hs | hd
  · exact h.isSign.isSpace x hs
  · exact isSpace_of_isDigit (List.all_eq_true.mp h.digits_isDigit x hd)

/-- `payloadInteger` lifts the digits' value to an integer before it applies the sign. -/
theorem map_lift_nat (o : Option Nat) (f : Int → Int) :
    (do let n ← o; pure (n : Int) : Option Int).map f = o.map fun n : Nat => f n := by
  cases o <;> rfl

/-- After the trim a sign decides how the digits behind it are read; without one the first character is a digit. -/
theorem payloadInteger_of_trim (hs : IsSign sign) (hd : ∀ x ∈ digits, isDigit x = true)
    (ht : trim cs = sign ++ digits) : payloadInteger cs = (digitsValue digits).map (signed sign) := by
  rcases hs with rfl | rfl | rfl
  · have hhead (c : Char) (hc : isDigit c = false) (rest : List Char) : digits ≠ c :: rest := by
      rintro rfl
      exact absurd (hd c List.mem_cons_self) (by simp [hc])
    have hplus := hhead '+' (by decide)
    have hminus := hhead '-' (by decide)
    simp only [payloadInteger, ht, List.nil_append, map_lift_nat]
    rfl
  · simp only [payloadInteger, ht, List.singleton_append, map_lift_nat]
    rfl
  · simp only [payloadInteger, ht, List.singleton_append, map_lift_nat]
    rfl

/-- A payload of the grammar is its digits' value under its sign. -/
theorem IntegerText.payloadInteger_eq (h : IntegerText lead sign digits trail) :
    payloadInteger (lead ++ sign ++ digits ++ trail) = some (signed sign (decimal digits)) := by
  have hv := digitsValue_eq_some_iff.mpr ⟨h.digits_ne_nil, h.digits_isDigit, rfl⟩
  rw [payloadInteger_of_trim h.isSign (List.all_eq_true.mp h.digits_isDigit) h.trim_eq, hv, Option.map_some]

/-- Every trimmed payload is read as some sign and the rest of it. -/
theorem payloadInteger_cases (cs : List Char) :
    ∃ sign digits, IsSign sign ∧ trim cs = sign ++ digits ∧
      payloadInteger cs = (digitsValue digits).map (signed sign) := by
  unfold payloadInteger
  split
  next rest ht => exact ⟨['+'], rest, .inr (.inl rfl), ht, map_lift_nat _ _⟩
  next rest ht => exact ⟨['-'], rest, .inr (.inr rfl), ht, map_lift_nat _ _⟩
  next => exact ⟨[], trim cs, .inl rfl, rfl, map_lift_nat _ _⟩

/-- Exactly the payloads outside the grammar give no integer. -/
theorem payloadInteger_eq_none_iff :
    payloadInteger cs = none ↔
      ¬ ∃ lead sign digits trail, cs = lead ++ sign ++ digits ++ trail ∧ IntegerText lead sign digits trail := by
  constructor
  · rintro hnone ⟨lead, sign, digits, trail, rfl, h⟩
    cases hnone.symm.trans h.payloadInteger_eq
  · intro hout
    by_contra hsome
    obtain ⟨v, hv⟩ := Option.ne_none_iff_exists'.mp hsome
    obtain ⟨sign, digits, hs, ht, hval⟩ := payloadInteger_cases cs
    obtain ⟨n, hn, -⟩ := Option.map_eq_some_iff.mp (hval.symm.trans hv)
    obtain ⟨hne, hd, -⟩ := digitsValue_eq_some_iff.mp hn
    obtain ⟨lead, trail, hcs, hlead, htrail⟩ := exists_eq_append_trim cs
    rw [ht, ← List.append_assoc] at hcs
    exact hout ⟨lead, sign, digits, trail, hcs, hlead, htrail, hs, hne, hd⟩

/-! ### The command of a payload -/

theorem clockwise_toList : "clockwise".toList = clockwiseText := by decide

theorem counterclockwise_toList : "counterclockwise".toList = counterclockwiseText := by decide

theorem payloadCommand_clockwise (delay : Nat) (h : cs.map foldCase = clockwiseText) :
    payloadCommand delay cs = .ok (.rotateBy true 1 delay) := if_pos h

theorem payloadCommand_counterclockwise (delay : Nat) (h : cs.map foldCase = counterclockwiseText) :
    payloadCommand delay cs = .ok (.rotateBy false 1 delay) := by
  have hne : cs.map foldCase ≠ clockwiseText := by rw [h]; decide
  rw [payloadCommand, if_neg hne, if_pos h]

/-- A payload that is neither literal is its integer, saturated, or an error. -/
theorem payloadCommand_not_literal (delay : Nat) (hcw : cs.map foldCase ≠ clockwiseText)
    (hccw : cs.map foldCase ≠ counterclockwiseText) :
    payloadCommand delay cs =
      (payloadInteger cs).elim (.error .inputError) fun v => .ok (.rotateTo (saturate16 v) delay) := by
  rw [payloadCommand, if_neg hcw, if_neg hccw]
  cases payloadInteger cs <;> rfl

theorem payloadCommand_eq_error_iff (delay : Nat) :
    payloadCommand delay cs = .error .inputError ↔
      cs.map foldCase ≠ clockwiseText ∧ cs.map foldCase ≠ counterclockwiseText ∧ payloadInteger cs = none := by
  by_cases hcw : cs.map foldCase = clockwiseText
  · simp [payloadCommand_clockwise delay hcw, hcw]
  by_cases hccw : cs.map foldCase = counterclockwiseText
  · simp [payloadCommand_counterclockwise delay hccw, hccw]
  rw [payloadCommand_not_literal delay hcw hccw]
  cases payloadInteger cs <;> simp [hcw, hccw]

/-- A payload of the grammar has a digit, so it is neither literal. -/
theorem IntegerText.payloadCommand_eq (h : IntegerText lead sign digits trail) (delay : Nat) :
    payloadCommand delay (lead ++ sign ++ digits ++ trail) =
      .ok (.rotateTo (saturate16 (signed sign (decimal digits))) delay) := by
  obtain ⟨d, hd⟩ := List.exists_mem_of_ne_nil _ h.digits_ne_nil
  have hmem : d ∈ lead ++ sign ++ digits ++ trail := by simp [hd]
  have hdigit := List.all_eq_true.mp h.digits_isDigit d hd
  rw [payloadCommand_not_literal delay (map_foldCase_ne_of_isDigit hmem hdigit (by decide))
    (map_foldCase_ne_of_isDigit hmem hdigit (by decide)), h.payloadInteger_eq, Option.elim_some]

/-! ### Saturation before ROTATE_TO's clamp -/

/-- 16 bits hold every angle that ROTATE_TO does not clamp (R111, R230). -/
theorem clampTarget_saturate16 (n : Int) : clampTarget (saturate16 n) = clampTarget n := by
  simp only [clampTarget, clamp, saturate16]
  omega

/-- ROTATE_TO reads its target through the clamp only (R230). -/
theorem exec_rotateTo_congr {a b : Int} (h : clampTarget a = clampTarget b) (D : Nat) (s : State) :
    exec (.rotateTo a D) s = exec (.rotateTo b D) s := by
  cases hb : s.busy with
  | true => rw [exec_command_of_busy hb rfl, exec_command_of_busy hb rfl]
  | false =>
    rw [exec_rotateTo_of_idle hb, exec_rotateTo_of_idle hb]
    simp only [rotateToUnits, rotateToEnd, rotateToDir, h]

/-- Settles O7: the literals by comparison, the integers by the grammar, which excludes them, and the saturation by
ROTATE_TO's own clamp. -/
theorem textPayloadsProduceTheirCommands : Obligations.TextPayloadsProduceTheirCommands := by
  unfold Obligations.TextPayloadsProduceTheirCommands
  rw [clockwise_toList, counterclockwise_toList]
  refine ⟨fun delay _ => payloadCommand_clockwise delay, fun delay _ => payloadCommand_counterclockwise delay,
    fun delay lead trail digits hlead htrail hne hd => ?_, fun delay p => ?_,
    fun n => exec_rotateTo_congr (clampTarget_saturate16 n)⟩
  · have hread (sign : List Char) (hs : IsSign sign) :=
      IntegerText.payloadCommand_eq ⟨hlead, htrail, hs, hne, hd⟩ delay
    have hnone := hread [] (.inl rfl)
    rw [List.append_nil] at hnone
    exact ⟨hnone, hread ['+'] (.inr (.inl rfl)), hread ['-'] (.inr (.inr rfl))⟩
  · rw [payloadCommand_eq_error_iff, payloadInteger_eq_none_iff]
    simp only [integerText_iff]

end Sys2Proof.Machine
end

section
/-! The words the spec writes out (R95 to R98, R103). -/

namespace Sys2Proof

theorem decode_of_encode_eq (i : Instr) {c : Code} (h : WellFormed i) (he : encode i = c) :
    decode c = .ok i.canonical := he ▸ decode_encode_canonical h

/-- Settles O1: each command word is an encoding, so it decodes to its instruction's canonical name, the one-degree
ROTATE_BY to its nudge (R112); the micro-step numbers are looked up. -/
theorem specWordsDecodeToTheirInstructions : Obligations.SpecWordsDecodeToTheirInstructions :=
  ⟨decode_of_encode_eq .loadCal rfl (by decide),
    decode_of_encode_eq .measure rfl (by decide),
    decode_of_encode_eq (.rotateBy true 1 1000) rfl (by decide),
    decode_of_encode_eq (.rotateBy false 90 2000) rfl (by decide),
    decode_of_encode_eq (.rotateTo (-90) 2000) rfl (by decide),
    decode_of_encode_eq (.rotateTo 180 1000) rfl (by decide),
    rfl, rfl, rfl, rfl, rfl, rfl, rfl, rfl⟩

end Sys2Proof
end
